-- ==== Sys2Proof/Config.lean ====
section
/-! DEFINITION. What an implementation fixes and the spec leaves OPEN (spec/00_scope.md rule R8;
spec/93_implementation_defined.md U20, U21). The spec has no free value: "No behaviour of the block is
modelled as `any value`" (93). Both constants have no body, and no rule and no definition of the model
reads them (log 7). -/

namespace Sys2Proof

/-- `P_OB_BASE`: where the output buffer lies in the host's memory (00 R8, 20 R61). Every rule uses
buffer-relative indices. -/
opaque Config.obBase : Nat

/-- `P_LATENCY`: the time from accepting a command to its effect (00 R8, 70 R203). The model has no time. -/
opaque Config.latency : Nat

end Sys2Proof
end

