-- ==== Sys2Proof/Word.lean ====
section
/-! DEFINITION. The word types of the block, with the widths of spec/00_scope.md rules R7, R8 and
spec/10_state.md. All are unsigned, bit 0 the least significant (00 R9, R10). -/

namespace Sys2Proof

/-- A channel value, an output byte, ACC, MASK, DIAGOP, an opcode field: 8 bits (00 R7, R8 `OPW`, `ACCW`). -/
abbrev Byte := BitVec 8

/-- WIDTH, HEIGHT, X, Y: 32 bits (00 R8 `DIMW`). -/
abbrev Dim := BitVec 32

/-- The operand field of a command; also DIAG and the packed pixel word: 32 bits (00 R8 `ARGW`, 20 R57). -/
abbrev Arg := BitVec 32

/-- A command word: 40 bits (00 R8 `CMDW`, 30 R70). -/
abbrev Command := BitVec 40

/-- An output-buffer index as the store port carries it: 64 bits (00 R8 `ADDRW`, 20 R50). -/
abbrev Addr := BitVec 64

end Sys2Proof
end

