-- ==== Sys2Proof/Syntax.lean ====
section
/-! DEFINITION. The five operations (spec/30_encoding.md rule R72), one constructor per row of
spec/opcode_table.json, with the operands of rules R74 to R77. -/

namespace Sys2Proof

/-- A legal command. Every value of every operand is legal (30 R75 to R77), so an `Instr` is well formed by
its types; which 40-bit WORDS are well formed is `Command.wellFormed` of WellFormed. -/
inductive Instr where
  /-- CFG: `mono = arg[9]`, `mask_en = arg[8]`, `mask = arg[7:0]` (30 R75, 43 R141). -/
  | cfg (mono maskEn : Bool) (mask : Byte)
  /-- SETW: `width = arg` (30 R76, 43 R142). -/
  | setw (width : Dim)
  /-- SETH: `height = arg` (30 R76, 43 R143). -/
  | seth (height : Dim)
  /-- BEGIN: no operand (30 R74, 43 R144). -/
  | begin
  /-- PIX: `p = arg`, the packed pixel word (30 R77, 43 R147). -/
  | pix (p : Arg)
  deriving DecidableEq, Repr

end Sys2Proof
end

