-- ==== Sys2Proof/WellFormed.lean ====
section
/-! DEFINITION. Which command words are well formed: the opcode map of spec/30_encoding.md rule R72, written
as its table of (match, mask) pairs and independent of the decoder of rule R78. -/

namespace Sys2Proof

/-- A row of the opcode map (30 R72). -/
structure OpRow where
  mnemonic : String
  pattern  : Command
  mask     : Command
  deriving DecidableEq, Repr

/-- The row of CFG (30 R72). -/
def OpRow.cfg : OpRow := ⟨"CFG", 0x0100000000, 0xFFFFFFFC00⟩
/-- The row of SETW (30 R72). -/
def OpRow.setw : OpRow := ⟨"SETW", 0x0200000000, 0xFF00000000⟩
/-- The row of SETH (30 R72). -/
def OpRow.seth : OpRow := ⟨"SETH", 0x0300000000, 0xFF00000000⟩
/-- The row of BEGIN (30 R72). -/
def OpRow.begin : OpRow := ⟨"BEGIN", 0x0400000000, 0xFFFFFFFFFF⟩
/-- The row of PIX (30 R72). -/
def OpRow.pix : OpRow := ⟨"PIX", 0x0500000000, 0xFF00000000⟩

/-- The opcode map: the five rows (30 R72). -/
def opcodeMap : List OpRow := [.cfg, .setw, .seth, .begin, .pix]

/-- The row that an operation belongs to. -/
def Instr.row : Instr → OpRow
  | .cfg _ _ _ => .cfg
  | .setw _ => .setw
  | .seth _ => .seth
  | .begin => .begin
  | .pix _ => .pix

/-- "A word selects an operation when `word & mask = match`" (30 R72). -/
def OpRow.selects (r : OpRow) (w : Command) : Bool := w &&& r.mask == r.pattern

/-- A word is well formed when some row selects it; every other word is illegal (30 R72, R79, R80). -/
def Command.wellFormed (w : Command) : Bool := opcodeMap.any fun r => r.selects w

end Sys2Proof
end

