-- ==== Sys2Proof/Decode.lean ====
section
/-! DEFINITION. The decoder of spec/30_encoding.md rule R78, total on every 40-bit word and rejecting by name
(rule R79), and the encoder of the same format (rules R70, R71). -/

namespace Sys2Proof

/-- Why a word is illegal (30 R79). The spec's decoder answers ILLEGAL alone; the reason has no effect. -/
inductive Illegal where
  /-- `op` is 0x00 or from 0x06 to 0xFF. -/
  | unknownOpcode (op : Byte)
  /-- CFG with any of `arg[31:10]` set. -/
  | cfgZeroField
  /-- BEGIN with `arg != 0`. -/
  | beginOperand
  deriving DecidableEq, Repr

/-- What the decoder answers (30 R78): one of the five operations, or ILLEGAL. -/
inductive Decoded where
  | op (i : Instr)
  | illegal (why : Illegal)
  deriving DecidableEq, Repr

/-- `op = word[39:32]` (30 R70). -/
def opField (w : Command) : Byte := w.extractLsb' 32 8

/-- `arg = word[31:0]` (30 R70). -/
def argField (w : Command) : Arg := w.extractLsb' 0 32

/-- `decode(word)` (30 R78). -/
def decode (w : Command) : Decoded :=
  let op := opField w
  let arg := argField w
  if op = 0x01#8 then
    if arg.extractLsb' 10 22 = 0#22 then
      .op (.cfg (arg.getLsbD 9) (arg.getLsbD 8) (arg.extractLsb' 0 8))
    else .illegal .cfgZeroField
  else if op = 0x02#8 then .op (.setw arg)
  else if op = 0x03#8 then .op (.seth arg)
  else if op = 0x04#8 then
    if arg = 0#32 then .op .begin else .illegal .beginOperand
  else if op = 0x05#8 then .op (.pix arg)
  else .illegal (.unknownOpcode op)

/-- The operation a decoder's answer holds, if it is one. -/
def Decoded.instr? : Decoded → Option Instr
  | .op i => some i
  | .illegal _ => none

/-- The opcode byte of an operation (30 R72). -/
def Instr.opcode : Instr → Byte
  | .cfg _ _ _ => 0x01
  | .setw _ => 0x02
  | .seth _ => 0x03
  | .begin => 0x04
  | .pix _ => 0x05

/-- The operand field of an operation (30 R71): what DIAG records when it faults (10 R32). -/
def Instr.arg : Instr → Arg
  | .cfg mono maskEn mask =>
    ((BitVec.ofBool mono).setWidth 32 <<< 9) ||| ((BitVec.ofBool maskEn).setWidth 32 <<< 8) ||| mask.setWidth 32
  | .setw width => width
  | .seth height => height
  | .begin => 0
  | .pix p => p

/-- A word from its two fields (30 R70): bits [39:32] and bits [31:0]. -/
def packCommand (op : Byte) (arg : Arg) : Command := op ++ arg

/-- The word of an operation (30 R70 to R72). -/
def encode (i : Instr) : Command := packCommand i.opcode i.arg

/-- The decoder on an instruction of `nbits` bits whose bits are `w`, numbered as spec/opcode_table.json
numbers them. A command is ONE 40-bit word taken whole from the port (30 R70, log 9), so the numeral's bits
are the word's bits; bits the table does not give are 0, and a numeral of more than 40 bits is no command. -/
def decodeTableWord (nbits w : Nat) : Option Instr :=
  if nbits ≤ 40 ∧ w < 2 ^ 40 then (decode (BitVec.ofNat 40 w)).instr? else none

end Sys2Proof
end

