-- ==== Sys2Proof/Machine/State.lean ====
section
/-! DEFINITION. The state of the block: the thirteen registers of spec/10_state.md rule R20, the output buffer
that a model carries next to them (rule R20, spec/20_memory.md rule R50), and the host's commands and resets not
yet taken (log 1). -/

namespace Sys2Proof.Machine

/-- MODE (10 R23). -/
inductive Mode where
  /-- 0: RGB332 mode. -/
  | rgb332
  /-- 1: MONO mode. -/
  | mono
  deriving DecidableEq, Repr

/-- STATE (10 R28). The value 3 is never taken (93 U19, log 8). -/
inductive RunState where
  /-- 0: no image in progress. -/
  | idle
  /-- 1: an image is in progress. -/
  | active
  /-- 2: a fatal condition has occurred; only reset leaves. -/
  | fault
  deriving DecidableEq, Repr

/-- RESULT (10 R29). The value 3 is never taken (93 U19, log 8). -/
inductive Result where
  /-- 0: no image has ended since reset or since the last BEGIN that started one. -/
  | none
  /-- 1: the image completed and every byte of OB has been stored. -/
  | done
  /-- 2: the last BEGIN found a width not divisible by 8 in MONO mode and started nothing. -/
  | skipped
  deriving DecidableEq, Repr

/-- CAUSE (10 R31, 60 R166). The value 7 is never taken (93 U19, log 8). -/
inductive Cause where
  /-- 0: no fault. -/
  | none
  /-- 1: a fully transparent pixel in RGB332 mode with no mask (60 R171). -/
  | transparentNoMask
  /-- 2: alpha from 1 to 254 in RGB332 mode (60 R172). -/
  | partialTransparency
  /-- 3: an opaque pixel with a channel outside its valid set in RGB332 mode (60 R173). -/
  | unsupportedChannel
  /-- 4: a pixel neither pure black nor pure white in MONO mode (60 R174). -/
  | invalidMonoPixel
  /-- 5: a word that is no operation (60 R175). -/
  | illegal
  /-- 6: a legal operation the current state does not allow (60 R176). -/
  | protocol
  deriving DecidableEq, Repr

/-- What the host does to the block between two steps (92 D2; 70 R190, R201; log 1). -/
inductive Input where
  /-- A 40-bit word on the command port. -/
  | command (w : Command)
  /-- The reset event (70 R190). -/
  | reset
  deriving DecidableEq, Repr

/-- The state of the model. -/
structure State where
  /-- ACC, the monochrome byte under construction (10 R21). -/
  acc : Byte
  /-- MODE (10 R23). -/
  mode : Mode
  /-- MASK_EN: a mask byte is configured (10 R24). -/
  maskEn : Bool
  /-- MASK, the mask byte (10 R25). -/
  mask : Byte
  /-- WIDTH (10 R26). -/
  width : Dim
  /-- HEIGHT (10 R27). -/
  height : Dim
  /-- STATE (10 R28). -/
  state : RunState
  /-- RESULT (10 R29). -/
  result : Result
  /-- X, the column of the next pixel (10 R30). -/
  x : Dim
  /-- Y, the row of the next pixel (10 R30). -/
  y : Dim
  /-- CAUSE (10 R31). -/
  cause : Cause
  /-- DIAG, the operand of the faulting command (10 R32). -/
  diag : Arg
  /-- DIAGOP, the opcode byte of the faulting command (10 R33). -/
  diagop : Byte
  /-- How many bytes the current OB has; `none` while no OB has been created (20 R51; log 3). -/
  obSize : Option Nat
  /-- OB: its nonzero bytes, addresses strictly rising (20 R50; log 3). -/
  ob : List Host.Cell
  /-- What the host has issued and the block has not yet taken, oldest first (log 1). -/
  inputs : List Input
  deriving DecidableEq, Repr

/-- The reasons the MODEL stops. The block's own fatal conditions are no `Fault`: they are next states with
`state = .fault` (60 R170). No run from reset reaches either of these. -/
inductive Fault where
  /-- Raised by PIX when it would store at an index that is not below the size of OB. The spec gives such a
  store no meaning ("an out-of-range store cannot occur and needs no rule", 20 R52). Safe (log 5). -/
  | storeOutsideBuffer (addr : Nat)
  /-- Raised by PIX when `advance()` is reached outside its stated precondition `X < WIDTH`, `Y < HEIGHT`
  (43 R148), where the spec gives it no meaning. Safe (log 6). -/
  | positionOutsideImage
  deriving DecidableEq, Repr

/-- The reasons the model gives no meaning. -/
inductive Refusal where
  /-- Raised by `exec` for an operation that has no meaning yet; safe. No arm raises it now. -/
  | notModelled (mnemonic : String)
  deriving DecidableEq, Repr

/-- The machine right after reset: every register 0 (10 R39), no OB (95 part 3: "Start state: reset (all
registers 0); no OB"), nothing issued by the host yet. -/
def State.reset : State where
  acc := 0
  mode := .rgb332
  maskEn := false
  mask := 0
  width := 0
  height := 0
  state := .idle
  result := .none
  x := 0
  y := 0
  cause := .none
  diag := 0
  diagop := 0
  obSize := none
  ob := []
  inputs := []

end Sys2Proof.Machine
end

