-- ==== Sys2Proof/Machine/Flags.lean ====
section
/-! DEFINITION. The block stores no condition code (spec/10_state.md rule R34). This file holds what stands in
their place: the numeric codes of the control and status registers (rules R23 to R31, spec/60_exceptions.md rule
R166), the status ports that show them (rule R35), and the combinational verdicts of rule R34. -/

namespace Sys2Proof.Machine

/-- The bit MODE holds (10 R23). -/
def Mode.code : Mode → BitVec 1
  | .rgb332 => 0
  | .mono => 1

/-- MODE from the bit `mono` of a CFG operand (10 R23, 43 R141). -/
def Mode.ofMono (mono : Bool) : Mode := if mono then .mono else .rgb332

/-- The two bits STATE holds (10 R28). -/
def RunState.code : RunState → BitVec 2
  | .idle => 0
  | .active => 1
  | .fault => 2

/-- The two bits RESULT holds (10 R29). -/
def Result.code : Result → BitVec 2
  | .none => 0
  | .done => 1
  | .skipped => 2

/-- The three bits CAUSE holds (10 R31, 60 R166). -/
def Cause.code : Cause → BitVec 3
  | .none => 0
  | .transparentNoMask => 1
  | .partialTransparency => 2
  | .unsupportedChannel => 3
  | .invalidMonoPixel => 4
  | .illegal => 5
  | .protocol => 6

/-- The status ports (10 R35, 92 D2). -/
structure StatusPorts where
  state  : BitVec 2
  result : BitVec 2
  cause  : BitVec 3
  diag   : Arg
  diagop : Byte
  xpos   : Dim
  ypos   : Dim
  deriving DecidableEq, Repr

/-- What the host sees when it samples the status ports between two steps; sampling has no side effect
(10 R35). -/
def State.statusPorts (s : State) : StatusPorts where
  state := s.state.code
  result := s.result.code
  cause := s.cause.code
  diag := s.diag
  diagop := s.diagop
  xpos := s.x
  ypos := s.y

/-- The reason inside the class UNSUPPORTED (40 R96, R97). -/
inductive Reason where
  | partialTransparency
  | unsupportedChannel
  deriving DecidableEq, Repr

/-- The class the Lookup Table gives a pixel (40 R96). -/
inductive PixelClass where
  | supported (byte : Byte)
  | transparent
  | unsupported (reason : Reason)
  deriving DecidableEq, Repr

/-- The fault cause of a reason (40 R101, 60 R166). -/
def Reason.cause : Reason → Cause
  | .partialTransparency => .partialTransparency
  | .unsupportedChannel => .unsupportedChannel

/-- What the output multiplexer gives: a byte to store, or a fault cause (40 R101). -/
inductive Selected where
  | byte (y : Byte)
  | cause (c : Cause)
  deriving DecidableEq, Repr

/-- The monochrome verdict on a pixel (42 R126). -/
inductive MonoVerdict where
  | bit (v : Bool)
  | invalid
  deriving DecidableEq, Repr

end Sys2Proof.Machine
end

