-- ==== Sys2Proof/Machine/Operands.lean ====
section
/-! DEFINITION. The operand forms: the packed pixel word (spec/20_memory.md rule R57, spec/00_scope.md rule R11)
and the fields that PIX examines. -/

namespace Sys2Proof.Machine

/-- A pixel, "a 4-byte tuple (red, green, blue, alpha), each channel 0–255" (00 R14). -/
structure Pixel where
  r : Byte
  g : Byte
  b : Byte
  a : Byte
  deriving DecidableEq, Repr

/-- `unpack(p)`: `r = p[31:24]`, `g = p[23:16]`, `b = p[15:8]`, `a = p[7:0]` (00 R11, 30 R77). -/
def unpack (p : Arg) : Pixel :=
  ⟨p.extractLsb' 24 8, p.extractLsb' 16 8, p.extractLsb' 8 8, p.extractLsb' 0 8⟩

/-- `pack(r, g, b, a) = (r << 24) | (g << 16) | (b << 8) | a`, 32 bits (00 R11, 20 R57). -/
def pack (q : Pixel) : Arg :=
  (q.r.setWidth 32 <<< 24) ||| (q.g.setWidth 32 <<< 16) ||| (q.b.setWidth 32 <<< 8) ||| q.a.setWidth 32

/-- Pure black, `(0,0,0,255)` (00 R14, 42 R126). -/
def pureBlack : Arg := 0x000000FF

/-- Pure white, `(255,255,255,255)` (00 R14, 42 R126). -/
def pureWhite : Arg := 0xFFFFFFFF

end Sys2Proof.Machine
end

