-- ==== Sys2Proof/Machine/Ops.lean ====
section
/-! DEFINITION. The named operations over memory and registers that every meaning is made of: the output buffer's
bytes (spec/20_memory.md), the register writes of spec/10_state.md rule R36, the derived quantities of its rule
R40, `MemWrite`, `advance()` (spec/43_control_ops.md rule R148), taking a fault (spec/60_exceptions.md rule R170),
the reset event (spec/70_reset_and_hazards.md rule R190) and the taking of a host input. -/

namespace Sys2Proof.Machine

/-- What every meaning answers. -/
abbrev Answer := Host.Outcome State Fault Refusal

/-- Perform the next part of a step on the state the first part leaves. -/
def Answer.andThen (o : Answer) (f : State → Answer) : Answer :=
  match o with
  | .next s => f s
  | .fault r => .fault r
  | .refused r => .refused r

/-! ### Bytes of the output buffer -/

/-- The byte at an index: an unlisted index reads as 0, what BEGIN puts there (20 R53; log 3). -/
def Memory.read : List Host.Cell → Nat → Byte
  | [], _ => 0
  | (b, u) :: m, a => if a = b then u else Memory.read m a

/-- Write a byte, keeping the canonical form: rising addresses, no entry equal to 0. -/
def Memory.write : List Host.Cell → Nat → Byte → List Host.Cell
  | [], a, v => if v = 0#8 then [] else [(a, v)]
  | (b, u) :: m, a, v =>
    if a < b then (if v = 0#8 then (b, u) :: m else (a, v) :: (b, u) :: m)
    else if a = b then (if v = 0#8 then m else (a, v) :: m)
    else (b, u) :: Memory.write m a v

/-- The canonical form: addresses strictly rising, no entry equal to what an unlisted address reads as. -/
abbrev Memory.wf (m : List Host.Cell) : Prop :=
  m.Pairwise (fun c d => c.1 < d.1) ∧ ∀ c ∈ m, c.2 ≠ 0#8

/-- OB[a] as the host reads it: no byte where OB has no such index (20 R50, R51). The block itself reads no
memory (20 R54). -/
def State.obByte (s : State) (a : Nat) : Option Byte :=
  match s.obSize with
  | some n => if a < n then some (Memory.read s.ob a) else none
  | none => none

/-- All of OB as the host takes it, index 0 first (20 R56, 43 R156). -/
def State.obBytes (s : State) : Option (List Byte) :=
  s.obSize.map fun n => (List.range n).map (Memory.read s.ob)

/-! ### Register writes (10 R36) -/

/-- MODE, MASK_EN, MASK <- (43 R141). -/
def State.configure (s : State) (mode : Mode) (maskEn : Bool) (mask : Byte) : State :=
  { s with mode := mode, maskEn := maskEn, mask := mask }

/-- WIDTH <- (43 R142). -/
def State.setWidth (s : State) (width : Dim) : State := { s with width := width }

/-- HEIGHT <- (43 R143). -/
def State.setHeight (s : State) (height : Dim) : State := { s with height := height }

/-- X <- 0, Y <- 0, ACC <- 0 (43 R144). -/
def State.clearPosition (s : State) : State := { s with x := 0, y := 0, acc := 0 }

/-- OB <- zeros(n): a fresh output buffer of `n` bytes (20 R51, R53). -/
def State.newBuffer (s : State) (n : Nat) : State := { s with obSize := some n, ob := [] }

/-- RESULT <- (10 R29). -/
def State.setResult (s : State) (r : Result) : State := { s with result := r }

/-- STATE <- (10 R28). -/
def State.setRunState (s : State) (st : RunState) : State := { s with state := st }

/-- ACC <- (42 R125). -/
def State.setAcc (s : State) (v : Byte) : State := { s with acc := v }

/-- (X, Y) <- (43 R148). -/
def State.setPosition (s : State) (x y : Dim) : State := { s with x := x, y := y }

/-- OB[a] <- v, all other bytes unchanged (20 R52); `memWrite` is the store with its bound. -/
def State.writeOb (s : State) (a : Nat) (v : Byte) : State := { s with ob := Memory.write s.ob a v }

/-- The inputs still to be taken <- . -/
def State.setInputs (s : State) (rest : List Input) : State := { s with inputs := rest }

/-! ### Derived quantities (10 R40): natural numbers, no overflow -/

/-- NPIX, the number of PIX commands an image takes (10 R40). -/
def State.npix (s : State) : Nat := s.width.toNat * s.height.toNat

/-- NBYTES, the size of OB for the image (10 R40, 20 R51). -/
def State.nbytes (s : State) : Nat :=
  match s.mode with
  | .rgb332 => s.width.toNat * s.height.toNat
  | .mono => s.width.toNat / 8 * s.height.toNat

/-- OADDR, the OB index of the byte to which the current pixel contributes (10 R40, R41). -/
def State.oaddr (s : State) : Nat :=
  match s.mode with
  | .rgb332 => s.y.toNat * s.width.toNat + s.x.toNat
  | .mono => s.y.toNat * (s.width.toNat / 8) + s.x.toNat / 8

/-! ### Stores, the raster position, faults, reset, inputs -/

/-- `MemWrite(a, 1, v)` (20 R52). An index outside OB, which no run reaches, stops the model (log 5). -/
def memWrite (a : Nat) (v : Byte) (s : State) : Answer :=
  match s.obSize with
  | some n => if a < n then .next (s.writeOb a v) else .fault (.storeOutsideBuffer a)
  | none => .fault (.storeOutsideBuffer a)

/-- The state `advance()` leaves (43 R148, R149). -/
def State.advanced (s : State) : State :=
  if s.x.toNat + 1 < s.width.toNat then s.setPosition (s.x + 1) s.y
  else if s.y.toNat + 1 = s.height.toNat then
    ((s.setPosition 0 (s.y + 1)).setRunState .idle).setResult .done
  else s.setPosition 0 (s.y + 1)

/-- `advance()` with its precondition `X < WIDTH`, `Y < HEIGHT` (43 R148). Outside it, which no run reaches,
the spec says nothing and the model stops (log 6). -/
def advance (s : State) : Answer :=
  if s.x < s.width ∧ s.y < s.height then .next s.advanced else .fault .positionOutsideImage

/-- `raise Fault(c)` during a command with fields `op` and `arg` (60 R170): STATE, CAUSE, DIAG, DIAGOP, and
nothing else. -/
def State.enterFault (s : State) (c : Cause) (op : Byte) (arg : Arg) : State :=
  { s with state := .fault, cause := c, diag := arg, diagop := op }

/-- `raise Fault(c)` by the operation `i` (60 R170). -/
def raiseFault (c : Cause) (i : Instr) (s : State) : Answer := .next (s.enterFault c i.opcode i.arg)

/-- Perform `effect` where the table of 43 R140 allows the operation `i`: in FAULT it is ignored (R150), in
the state it is allowed in it is performed, in the other it raises PROTOCOL (R152). -/
def performIn (allowed : RunState) (i : Instr) (s : State) (effect : Answer) : Answer :=
  if s.state = .fault then .next s
  else if s.state = allowed then effect
  else raiseFault .protocol i s

/-- A word that is no operation (30 R79, 43 R151): ignored in FAULT (R150), else the fault ILLEGAL with
`DIAG = arg`, `DIAGOP = op` of the word. -/
def illegalWord (w : Command) (s : State) : State :=
  if s.state = .fault then s else s.enterFault .illegal (opField w) (argField w)

/-- The reset event (70 R190): every register at the value of 10 R39; OB is not written (70 R194); what the
host issued behind the reset is still to come. -/
def State.resetBlock (s : State) : State :=
  { State.reset with obSize := s.obSize, ob := s.ob, inputs := s.inputs }

/-- Take the oldest input the host has issued, if there is one (log 1). -/
def State.takeInput (s : State) : Option (Input × State) :=
  match s.inputs with
  | [] => none
  | e :: rest => some (e, s.setInputs rest)

end Sys2Proof.Machine
end

