-- ==== Sys2Proof/Machine/Control.lean ====
section
/-! DEFINITION. The control operations of spec/43_control_ops.md: CFG, SETW, SETH, BEGIN. -/

namespace Sys2Proof.Machine

/-- CFG (43 R141): the run's mode and mask. -/
def execCfg (mono maskEn : Bool) (mask : Byte) (s : State) : Answer :=
  performIn .idle (.cfg mono maskEn mask) s (.next (s.configure (Mode.ofMono mono) maskEn mask))

/-- SETW (43 R142). -/
def execSetw (width : Dim) (s : State) : Answer :=
  performIn .idle (.setw width) s (.next (s.setWidth width))

/-- SETH (43 R143). -/
def execSeth (height : Dim) (s : State) : Answer :=
  performIn .idle (.seth height) s (.next (s.setHeight height))

/-- The width test of 43 R146: MONO mode and `WIDTH mod 8 != 0`. -/
def State.widthSkips (s : State) : Bool := s.mode == .mono && s.width.toNat % 8 != 0

/-- The state BEGIN leaves in IDLE (43 R144 to R146). A BEGIN that skips creates no OB; one of an earlier
image stays (log 4). -/
def State.beginImage (s : State) : State :=
  if s.widthSkips then s.clearPosition.setResult .skipped
  else if s.width = 0#32 ∨ s.height = 0#32 then (s.clearPosition.newBuffer s.nbytes).setResult .done
  else ((s.clearPosition.newBuffer s.nbytes).setResult .none).setRunState .active

/-- BEGIN (43 R144). -/
def execBegin (s : State) : Answer := performIn .idle .begin s (.next s.beginImage)

end Sys2Proof.Machine
end

