-- ==== Sys2Proof/Machine/Lookup.lean ====
section
/-! DEFINITION. The Lookup Table and the mux: spec/40_lookup_table.md. Pure functions over constant tables; no
state (rule R100). -/

namespace Sys2Proof.Machine

/-- The red table (40 R90). -/
def redTable : List (Byte × BitVec 3) :=
  [(0x00, 0b000), (0x24, 0b001), (0x49, 0b010), (0x6D, 0b011),
   (0x92, 0b100), (0xB6, 0b101), (0xDB, 0b110), (0xFF, 0b111)]

/-- The green table (40 R91). -/
def greenTable : List (Byte × BitVec 3) :=
  [(0x00, 0b000), (0x24, 0b001), (0x49, 0b010), (0x6D, 0b011),
   (0x92, 0b100), (0xB6, 0b101), (0xDB, 0b110), (0xFF, 0b111)]

/-- The blue table (40 R92). -/
def blueTable : List (Byte × BitVec 2) :=
  [(0x00, 0b00), (0x55, 0b01), (0xAA, 0b10), (0xFF, 0b11)]

/-- `quant_r(v)`: exact match, `none` is `Unsupported` (40 R90). -/
def quantR (v : Byte) : Option (BitVec 3) := redTable.lookup v

/-- `quant_g(v)` (40 R91). -/
def quantG (v : Byte) : Option (BitVec 3) := greenTable.lookup v

/-- `quant_b(v)` (40 R92). -/
def quantB (v : Byte) : Option (BitVec 2) := blueTable.lookup v

/-- The `channel_kind` of `quantize` (40 R93). -/
inductive Channel where
  | red
  | green
  | blue
  deriving DecidableEq, Repr

/-- The width of a channel's code (00 R7). -/
def Channel.bits : Channel → Nat
  | .red => 3
  | .green => 3
  | .blue => 2

/-- `quantize(kind, v)` (40 R93). -/
def quantize : (kind : Channel) → Byte → Option (BitVec kind.bits)
  | .red, v => quantR v
  | .green, v => quantG v
  | .blue, v => quantB v

/-- `combine(cr, cg, cb) = (cr << 5) | (cg << 2) | cb` (40 R95). -/
def combine (cr cg : BitVec 3) (cb : BitVec 2) : Byte :=
  (cr.setWidth 8 <<< 5) ||| (cg.setWidth 8 <<< 2) ||| cb.setWidth 8

/-- `lookup(p)` (40 R96): alpha is tested first and alone (R98). -/
def lookup (p : Arg) : PixelClass :=
  let q := unpack p
  if q.a = 0x00#8 then .transparent
  else if q.a ≠ 0xFF#8 then .unsupported .partialTransparency
  else
    match quantR q.r, quantG q.g, quantB q.b with
    | some cr, some cg, some cb => .supported (combine cr cg cb)
    | _, _, _ => .unsupported .unsupportedChannel

/-- `select332(p, mask_en, mask)`, the output multiplexer (40 R101). -/
def select332 (p : Arg) (maskEn : Bool) (mask : Byte) : Selected :=
  match lookup p with
  | .supported y => .byte y
  | .transparent => if maskEn then .byte mask else .cause .transparentNoMask
  | .unsupported reason => .cause reason.cause

/-- The pattern that repeats a 3-bit code down the byte, `(c << 5) | (c << 2) | (c >> 1)` (40 R94, R99). -/
def rep3 (c : BitVec 3) : Byte :=
  (c.setWidth 8 <<< 5) ||| (c.setWidth 8 <<< 2) ||| (c.setWidth 8 >>> 1)

end Sys2Proof.Machine
end

