-- ==== Sys2Proof/Machine/Rgb332.lean ====
section
/-! DEFINITION. The RGB332 encoder: spec/41_rgb332_encoder.md. -/

namespace Sys2Proof.Machine

/-- PIX with `MODE = 0` in ACTIVE (41 R110): one store at OADDR and `advance()`, or one of three faults. -/
def pixRgb332 (p : Arg) (s : State) : Answer :=
  match select332 p s.maskEn s.mask with
  | .cause c => raiseFault c (.pix p) s
  | .byte y => (memWrite s.oaddr y s).andThen advance

/-- What a whole-image function answers (41 R116, 42 R132). -/
inductive Encoded where
  /-- The output bytes. -/
  | ok (bytes : List Byte)
  /-- The first index in raster order whose pixel has a fatal condition, with that pixel. -/
  | fatal (c : Cause) (i : Nat) (q : Arg)
  /-- The width violation of MONO mode (42 R132). -/
  | skipped
  deriving DecidableEq, Repr

/-- The loop of `encode332` from index `i` on, over the pixels still to come (41 R116). -/
def encode332From (maskEn : Bool) (mask : Byte) : (i : Nat) → (bytes : List Byte) → List Arg → Encoded
  | _, bytes, [] => .ok bytes
  | i, bytes, p :: ps =>
    match select332 p maskEn mask with
    | .cause c => .fatal c i p
    | .byte y => encode332From maskEn mask (i + 1) (bytes.set i y) ps

/-- `encode332(W, H, px, mask_en, mask)` (41 R116). -/
def encode332 (W H : Nat) (px : List Arg) (maskEn : Bool) (mask : Byte) : Encoded :=
  encode332From maskEn mask 0 (List.replicate (W * H) 0) (px.take (W * H))

end Sys2Proof.Machine
end

