-- ==== Sys2Proof/Machine/Mono.lean ====
section
/-! DEFINITION. The monochrome packer: spec/42_mono_packer.md. -/

namespace Sys2Proof.Machine

/-- `mono_bit(p)`: the whole word is compared; there is no threshold (42 R126). -/
def monoBit (p : Arg) : MonoVerdict :=
  if p = pureBlack then .bit false else if p = pureWhite then .bit true else .invalid

/-- `v << (7 - k)`: the bit of the pixel at column `k` of its 8-pixel run, MSB first (42 R127, 20 R58). -/
def laneBit (v : Bool) (k : Nat) : Byte := (BitVec.ofBool v).setWidth 8 <<< (7 - k)

/-- PIX with `MODE = 1` in ACTIVE (42 R125): gather one bit; on the eighth, store the byte and clear ACC;
`advance()`; or the fault INVALID_MONO_PIXEL. -/
def pixMono (p : Arg) (s : State) : Answer :=
  match monoBit p with
  | .invalid => raiseFault .invalidMonoPixel (.pix p) s
  | .bit v =>
    let k := s.x.toNat % 8
    let acc' := s.acc ||| laneBit v k
    if k = 7 then (memWrite s.oaddr acc' s).andThen fun s' => advance (s'.setAcc 0)
    else advance (s.setAcc acc')

/-- The loop of `encodeMono` from index `i` on: the bit of the pixel at `(x, y)` is set by exclusive or in the
byte at `y*(W div 8) + x div 8` (42 R132, R129). -/
def encodeMonoFrom (W : Nat) : (i : Nat) → (bytes : List Byte) → List Arg → Encoded
  | _, bytes, [] => .ok bytes
  | i, bytes, p :: ps =>
    match monoBit p with
    | .invalid => .fatal .invalidMonoPixel i p
    | .bit v =>
      let x := i % W
      let y := i / W
      encodeMonoFrom W (i + 1) (bytes.modify (y * (W / 8) + x / 8) (· ^^^ laneBit v (x % 8))) ps

/-- `encodeMono(W, H, px)` (42 R132): the width test comes first and looks at no pixel. -/
def encodeMono (W H : Nat) (px : List Arg) : Encoded :=
  if W % 8 ≠ 0 then .skipped
  else encodeMonoFrom W 0 (List.replicate (W / 8 * H) 0) (px.take (W * H))

/-- The bits gathered from a run of pixels, the first at bit `7 - k` (42 R128); an invalid pixel gives none. -/
def gatherFrom : (k : Nat) → List Arg → Byte
  | _, [] => 0
  | k, p :: ps => laneBit (monoBit p == .bit true) k ||| gatherFrom (k + 1) ps

end Sys2Proof.Machine
end

