-- ==== Sys2Proof/Machine/Pixel.lean ====
section
/-! DEFINITION. PIX: its dispatch on STATE and MODE (spec/43_control_ops.md rule R147), and the store port's
view of it (spec/20_memory.md rule R52, spec/92_eei_decisions.md D2). -/

namespace Sys2Proof.Machine

/-- PIX (43 R147). -/
def execPix (p : Arg) (s : State) : Answer :=
  performIn .active (.pix p) s
    (match s.mode with
     | .rgb332 => pixRgb332 p s
     | .mono => pixMono p s)

/-- The index and byte of the one store a PIX makes, if it makes one (20 R52, R60): in RGB332 mode one for
every pixel that does not fault (41 R111), in MONO mode one for every eighth (42 R128). -/
def storeOf (p : Arg) (s : State) : Option (Nat × Byte) :=
  if s.state = .active then
    match s.mode with
    | .rgb332 =>
      match select332 p s.maskEn s.mask with
      | .byte y => some (s.oaddr, y)
      | .cause _ => none
    | .mono =>
      match monoBit p with
      | .bit v =>
        if s.x.toNat % 8 = 7 then some (s.oaddr, s.acc ||| laneBit v (s.x.toNat % 8)) else none
      | .invalid => none
  else none

/-- The store port while a PIX is performed: `st_addr` on 64 bits, `st_data` (92 D2, 20 R50). -/
def storePort (p : Arg) (s : State) : Option (Addr × Byte) :=
  (storeOf p s).map fun c => (BitVec.ofNat 64 c.1, c.2)

end Sys2Proof.Machine
end

