-- ==== Sys2Proof/Machine/Dispatch.lean ====
section
/-! DEFINITION. The one match over the operations (spec/30_encoding.md rule R72). -/

namespace Sys2Proof.Machine

/-- What an operation does: its meaning. -/
def exec (i : Instr) (s : State) : Host.Outcome State Fault Refusal :=
  match i with
  | .cfg mono maskEn mask => Sys2Proof.Machine.execCfg mono maskEn mask s
  | .setw width => Sys2Proof.Machine.execSetw width s
  | .seth height => Sys2Proof.Machine.execSeth height s
  | .begin => Sys2Proof.Machine.execBegin s
  | .pix p => Sys2Proof.Machine.execPix p s

end Sys2Proof.Machine
end

