-- ==== Sys2Proof/Machine/Step.lean ====
section
/-! DEFINITION. One step (spec/00_scope.md rule R12): "the complete performance of one accepted command", or the
reset event. -/

namespace Sys2Proof.Machine

/-- One step: take the oldest input of the host. With none, nothing happens: "the block takes no step that a
command or the reset did not cause" (00 R12) and "is idle between commands and keeps all state" (60 R183; log 2). -/
def step (s : State) : Host.Outcome State Fault Refusal :=
  match s.takeInput with
  | none => .next s
  | some (.reset, s') => .next s'.resetBlock
  | some (.command w, s') =>
    match decode w with
    | .op i => exec i s'
    | .illegal _ => .next (illegalWord w s')

/-- `s` with one more word on the command port, before all others, so that the very next `step` takes it
(log 9). The block has no program counter and fetches nothing (10 R30, 20 R66). -/
def State.withFetchWord (s : State) (_nbits w : Nat) : State :=
  s.setInputs (.command (BitVec.ofNat 40 w) :: s.inputs)

end Sys2Proof.Machine
end

