-- ==== Sys2Proof/Machine/Assembler.lean ====
section
/-! DEFINITION. The command sequences of spec/30_encoding.md section 5: the assembler's lines (rule R82), the
pseudo-instruction IMAGE (rule R83), the mask literal and the command line's counterpart of CFG (rule R84). -/

namespace Sys2Proof.Machine

/-- One line of a command sequence (30 R82, R83). -/
inductive AsmLine where
  /-- `CFG RGB332` and `CFG RGB332, <mask>`. -/
  | cfgRgb332 (mask : Option Byte)
  /-- `CFG MONO` and `CFG MONO, <mask>`. -/
  | cfgMono (mask : Option Byte)
  /-- `SETW <n>`. -/
  | setw (n : Dim)
  /-- `SETH <n>`. -/
  | seth (n : Dim)
  /-- `BEGIN`. -/
  | begin
  /-- `PIX <r>, <g>, <b>, <a>`. -/
  | pixChannels (q : Pixel)
  /-- `PIX <p>`. -/
  | pixWord (p : Arg)
  /-- `.word <w>`. -/
  | word (w : Command)
  /-- `IMAGE <w>, <h>`. -/
  | image (w h : Dim)
  deriving DecidableEq, Repr

/-- The CFG a mode and an optional mask stand for (30 R82, R84): no mask gives `mask_en = 0`, `mask = 0`. -/
def cfgOf (monochrome : Bool) (mask : Option Byte) : Instr :=
  match mask with
  | none => .cfg monochrome false 0
  | some m => .cfg monochrome true m

/-- `IMAGE <w>, <h>` expands to `SETW <w>`, `SETH <h>`, `BEGIN` (30 R83). -/
def imageOps (w h : Dim) : List Instr := [.setw w, .seth h, .begin]

/-- The words of a line (30 R82, R83). -/
def AsmLine.words : AsmLine → List Command
  | .cfgRgb332 mask => [encode (cfgOf false mask)]
  | .cfgMono mask => [encode (cfgOf true mask)]
  | .setw n => [encode (.setw n)]
  | .seth n => [encode (.seth n)]
  | .begin => [encode .begin]
  | .pixChannels q => [encode (.pix (pack q))]
  | .pixWord p => [encode (.pix p)]
  | .word w => [w]
  | .image w h => (imageOps w h).map encode

/-- The digits of a mask literal after `0b`, underscores stripped: exactly 8 binary digits, the first the most
significant (30 R84). `n` is how many digits are still wanted. -/
def maskDigits : (n : Nat) → (v : Byte) → List Char → Option Byte
  | 0, v, [] => some v
  | _ + 1, _, [] => none
  | n, v, '_' :: cs => maskDigits n v cs
  | n + 1, v, '0' :: cs => maskDigits n (v <<< 1) cs
  | n + 1, v, '1' :: cs => maskDigits n (v <<< 1 ||| 1) cs
  | _, _, _ :: _ => none

/-- The mask literal "`0b` followed by 8 binary digits (underscores permitted as separators, stripped before
parsing)" (30 R84); `none` is a malformed literal, which never reaches the block (43 R158). -/
def maskLiteral : List Char → Option Byte
  | '0' :: 'b' :: cs => maskDigits 8 0 cs
  | _ => none

/-- The commands the host issues for one image, behind those of the run's configuration (43 R153, R154). -/
def imageInputs (w h : Dim) (px : List Arg) : List Input :=
  (imageOps w h ++ px.map Instr.pix).map fun i => .command (encode i)

end Sys2Proof.Machine
end

