-- ==== Sys2Proof/Safety.lean ====
section
/-! DEFINITION. What claims are stated with: the invariants of spec/10_state.md rule R37, and the outcomes of an
image as the host sees them (spec/60_exceptions.md rule R184, spec/43_control_ops.md rules R154 to R157). -/

namespace Sys2Proof.Machine

/-- What holds in every state reachable from reset (10 R37), with what the model adds about OB (log 3). R37 (a)
holds by the types of STATE and RESULT; `CAUSE <= 6` by that of CAUSE. -/
structure Inv (s : State) : Prop where
  /-- R37 (b): "`CAUSE = 0` exactly when `STATE != FAULT`". -/
  cause_none_iff : s.cause = .none ↔ s.state ≠ .fault
  /-- R37 (c). -/
  active_width_pos : s.state = .active → 0 < s.width
  /-- R37 (c). -/
  active_height_pos : s.state = .active → 0 < s.height
  /-- R37 (c). -/
  active_x_lt : s.state = .active → s.x < s.width
  /-- R37 (c). -/
  active_y_lt : s.state = .active → s.y < s.height
  /-- R37 (c). -/
  active_result : s.state = .active → s.result = .none
  /-- R37 (d): in MONO mode the width of an image is a multiple of 8. -/
  mono_width : s.state = .active → s.mode = .mono → s.width.toNat % 8 = 0
  /-- R37 (d): "the `8 - (X mod 8)` low bits of ACC are 0". -/
  mono_acc_low : s.state = .active → s.mode = .mono → ∀ j < 8 - s.x.toNat % 8, s.acc.getLsbD j = false
  /-- R37 (e): "Whenever `STATE = IDLE`, `ACC = 0`". -/
  idle_acc : s.state = .idle → s.acc = 0
  /-- R37 (e): "while `MODE = 0` and `STATE != FAULT`, `ACC = 0`". -/
  rgb_acc : s.mode = .rgb332 → s.state ≠ .fault → s.acc = 0
  /-- OB is in its canonical form (log 3). -/
  ob_wf : Memory.wf s.ob
  /-- Every listed byte of OB lies below its size (20 R50). -/
  ob_below : ∀ c ∈ s.ob, ∃ n, s.obSize = some n ∧ c.1 < n
  /-- While an image is in progress OB has NBYTES bytes (20 R51). -/
  active_obSize : s.state = .active → s.obSize = some s.nbytes
  /-- `RESULT = DONE` only after a BEGIN that created an OB (10 R29, 20 R53). -/
  done_obSize : s.result = .done → s.obSize.isSome

/-- How an image stands, as the host reads it off the status ports and OB (60 R184). -/
inductive Verdict where
  /-- IDLE and NONE: no image has been started since reset. -/
  | notStarted
  /-- ACTIVE: the host must send the pixel at `(x, y)` (43 R154). -/
  | wants (x y : Dim)
  /-- IDLE and DONE: the host writes the bytes of OB (43 R156). -/
  | done (bytes : Option (List Byte))
  /-- IDLE and SKIPPED: no output; the host goes on to the next file (43 R155). -/
  | skipped
  /-- FAULT: the host reports `cause` and `diag`, discards OB and ends the run (43 R157); `(x, y)` is where
  the fault was. -/
  | fatal (cause : Cause) (diag : Arg) (x y : Dim)
  deriving DecidableEq, Repr

/-- How an image stands (60 R184). In FAULT the answer is `fatal` whatever RESULT holds: "no claim "the output
is X" holds of it" (60 R178), and the host reads OB only on DONE (70 R197). -/
def State.verdict (s : State) : Verdict :=
  match s.state, s.result with
  | .fault, _ => .fatal s.cause s.diag s.x s.y
  | .active, _ => .wants s.x s.y
  | .idle, .none => .notStarted
  | .idle, .done => .done s.obBytes
  | .idle, .skipped => .skipped

/-- The block's registers, all but OB and the host's pending inputs, are equal in two states (10 R20). -/
def State.sameRegisters (s t : State) : Prop :=
  t.acc = s.acc ∧ t.mode = s.mode ∧ t.maskEn = s.maskEn ∧ t.mask = s.mask ∧ t.width = s.width ∧
  t.height = s.height ∧ t.state = s.state ∧ t.result = s.result ∧ t.x = s.x ∧ t.y = s.y ∧
  t.cause = s.cause ∧ t.diag = s.diag ∧ t.diagop = s.diagop

end Sys2Proof.Machine
end

