-- ==== Sys2Proof/Certificates/Slice0/Obligations.lean ====
section
/-! DEFINITION. The statements for the provers. Each docstring names the rule of spec/ it formalises, or the
sections it rests on. Next states are written out field by field, so that a statement says which registers and
which bytes of OB change and that all others keep their value. -/

open Sys2Proof Sys2Proof.Machine

/-! ### Encoding (spec/30_encoding.md) -/

/-- Decoding the word of an operation gives that operation back, with every operand at every value (30 R70, R71,
R74 to R78). -/
def Obligations.DecodeOfEncode : Prop := ∀ i : Instr, decode (encode i) = .op i

/-- A legal word is the word of the operation it decodes to: no bit of it is dropped (30 R74, R78). -/
def Obligations.EncodeOfDecode : Prop := ∀ (w : Command) (i : Instr), decode w = .op i → encode i = w

/-- 30 R72: five operations; a word selects one when `word & mask = match`; the pairs are disjoint; a word that
selects none is illegal. -/
def Obligations.WordSelectsOneRow : Prop :=
  opcodeMap.length = 5 ∧
  (∀ (w : Command) (r : OpRow), r ∈ opcodeMap →
    (w &&& r.mask = r.pattern ↔ ∃ i, decode w = .op i ∧ i.row = r)) ∧
  (∀ (w : Command) (r r' : OpRow), r ∈ opcodeMap → r' ∈ opcodeMap →
    w &&& r.mask = r.pattern → w &&& r'.mask = r'.pattern → r = r') ∧
  (∀ w : Command, (∃ why, decode w = .illegal why) ↔ ∀ r ∈ opcodeMap, w &&& r.mask ≠ r.pattern)

/-- 30 R79, 43 R151, 60 R175: which words are illegal, and what an illegal word does when it is accepted. -/
def Obligations.IllegalWordsFault : Prop :=
  Cause.illegal.code = 5 ∧
  (∀ w : Command, (∃ why, decode w = .illegal why) ↔
    opField w = 0x00 ∨ 0x06 ≤ opField w ∨
    (opField w = 0x01 ∧ (argField w).extractLsb' 10 22 ≠ 0) ∨ (opField w = 0x04 ∧ argField w ≠ 0)) ∧
  (∃ why, decode 0 = .illegal why) ∧ (∃ why, decode 0xFFFFFFFFFF = .illegal why) ∧
  (∀ (s : State) (w : Command) (why : Illegal) (rest : List Input),
    s.inputs = .command w :: rest → decode w = .illegal why →
    (s.state ≠ .fault → step s = .next { s with
      inputs := rest, state := .fault, cause := .illegal, diag := argField w, diagop := opField w }) ∧
    (s.state = .fault → step s = .next { s with inputs := rest }))

/-- Words written out bit by bit from the patterns of 30 R72 decode to the operations they stand for. -/
def Obligations.SampleWordsDecode : Prop :=
  decode 0b00000001_0000000000000000000000_0_1_11100011 = .op (.cfg false true 0xE3) ∧
  decode 0b00000001_0000000000000000000000_1_0_00000000 = .op (.cfg true false 0x00) ∧
  decode 0b00000010_00000000000000000000000000001000 = .op (.setw 8) ∧
  decode 0b00000011_00000000000000000000000000000001 = .op (.seth 1) ∧
  decode 0b00000100_00000000000000000000000000000000 = .op .begin ∧
  decode 0b00000101_00100100_00000000_01010101_11111111 = .op (.pix 0x240055FF)

/-- 20 R57: `pack` and `unpack` are each other's inverse, red in bits [31:24] down to alpha in bits [7:0]. -/
def Obligations.PackUnpack : Prop :=
  (∀ q : Pixel, unpack (pack q) = q) ∧ (∀ p : Arg, pack (unpack p) = p) ∧
  (∀ q : Pixel, pack q = q.r ++ (q.g ++ (q.b ++ q.a)))

/-- 30 R83: `IMAGE <w>, <h>` is the three words of SETW, SETH, BEGIN, in that order; and the words of every other
line, as the table of 30 R82 gives them. -/
def Obligations.ImageExpands : Prop :=
  (∀ w h : Dim,
    (AsmLine.image w h).words.map decode = [.op (.setw w), .op (.seth h), .op .begin] ∧
    (AsmLine.setw w).words = [0x02#8 ++ w] ∧ (AsmLine.seth h).words = [0x03#8 ++ h] ∧
    (AsmLine.image w h).words = [0x02#8 ++ w, 0x03#8 ++ h, 0x0400000000]) ∧
  (AsmLine.cfgRgb332 none).words = [0x0100000000] ∧ (AsmLine.cfgMono none).words = [0x0100000200] ∧
  (∀ m : Byte, (AsmLine.cfgRgb332 (some m)).words = [0x01000001#32 ++ m] ∧
    (AsmLine.cfgMono (some m)).words = [0x01000003#32 ++ m]) ∧
  AsmLine.begin.words = [0x0400000000] ∧
  (∀ q : Pixel, (AsmLine.pixChannels q).words = [0x05#8 ++ q.r ++ q.g ++ q.b ++ q.a]) ∧
  (∀ p : Arg, (AsmLine.pixWord p).words = [0x05#8 ++ p]) ∧ ∀ w : Command, (AsmLine.word w).words = [w]

/-- 30 R84: the underscores of a mask literal are stripped before parsing, and a literal of 8 binary digits is
read with its first digit the most significant. -/
def Obligations.MaskLiteralStripsUnderscores : Prop :=
  (∀ cs : List Char, maskLiteral ('0' :: 'b' :: cs) = maskLiteral ('0' :: 'b' :: cs.filter (· != '_'))) ∧
  (∀ bits : List Bool, bits.length = 8 →
    maskLiteral ('0' :: 'b' :: bits.map (fun d => if d then '1' else '0')) =
      some (bits.foldl (fun v d => v * 2 + if d then 1 else 0) 0))

/-! ### A step (spec/00_scope.md R12, spec/70_reset_and_hazards.md) -/

/-- A step runs the decoded operation: the word at the head of what the host issued is taken, and the operation
it decodes to is performed on the rest (00 R12, 30 R78; the queue is log 1). -/
def Obligations.StepRunsDecodedCommand : Prop :=
  ∀ (s : State) (w : Command) (i : Instr) (rest : List Input),
    s.inputs = .command w :: rest → decode w = .op i → step s = exec i { s with inputs := rest }

/-- With nothing issued by the host nothing changes (00 R12, 60 R183; log 2 is the model's reading). -/
def Obligations.StepWithoutInput : Prop := ∀ s : State, s.inputs = [] → step s = .next s

/-- 10 R39: every register is 0 after the reset event, in whatever state it comes, and OB is not changed. -/
def Obligations.ResetEventClearsRegisters : Prop :=
  ∀ (s : State) (rest : List Input), s.inputs = .reset :: rest →
    ∃ t, step s = .next t ∧
      t.acc = 0 ∧ t.mode.code = 0 ∧ t.maskEn = false ∧ t.mask = 0 ∧ t.width = 0 ∧ t.height = 0 ∧
      t.state.code = 0 ∧ t.result.code = 0 ∧ t.x = 0 ∧ t.y = 0 ∧ t.cause.code = 0 ∧ t.diag = 0 ∧
      t.diagop = 0 ∧ t.obSize = s.obSize ∧ t.ob = s.ob ∧ t.inputs = rest

/-- 10 R39 for the state the machine starts in. -/
def Obligations.ResetStateRegisters : Prop :=
  State.reset.acc = 0 ∧ State.reset.mode.code = 0 ∧ State.reset.maskEn = false ∧ State.reset.mask = 0 ∧
  State.reset.width = 0 ∧ State.reset.height = 0 ∧
  State.reset.statusPorts =
    { state := 0, result := 0, cause := 0, diag := 0, diagop := 0, xpos := 0, ypos := 0 }

/-- The reserved codes of STATE, RESULT and CAUSE are never shown (10 R28, R29, R31; log 8). -/
def Obligations.ReservedCodesNeverShown : Prop :=
  ∀ s : State, s.statusPorts.state ≠ 3 ∧ s.statusPorts.result ≠ 3 ∧ s.statusPorts.cause ≠ 7

/-- What the registers hold and the status ports show (10 R35): MODE 0 and 1 (10 R23), with MODE taking the bit
`mono` of CFG (43 R141), STATE 0 to 2 (10 R28), RESULT 0 to 2 (10 R29), CAUSE 0 to 6 (10 R31, 60 R166), and DIAG,
DIAGOP, X and Y as they are. -/
def Obligations.StatusCodesAsNumbered : Prop :=
  (∀ s : State,
    s.mode.code = (match s.mode with
      | .rgb332 => 0
      | .mono => 1) ∧
    s.statusPorts.state = (match s.state with
      | .idle => 0
      | .active => 1
      | .fault => 2) ∧
    s.statusPorts.result = (match s.result with
      | .none => 0
      | .done => 1
      | .skipped => 2) ∧
    s.statusPorts.cause = (match s.cause with
      | .none => 0
      | .transparentNoMask => 1
      | .partialTransparency => 2
      | .unsupportedChannel => 3
      | .invalidMonoPixel => 4
      | .illegal => 5
      | .protocol => 6) ∧
    s.statusPorts.diag = s.diag ∧ s.statusPorts.diagop = s.diagop ∧
    s.statusPorts.xpos = s.x ∧ s.statusPorts.ypos = s.y) ∧
  (∀ (mono maskEn : Bool) (mask : Byte) (s : State), s.state = .idle →
    ∃ t, exec (.cfg mono maskEn mask) s = .next t ∧ t.mode.code = BitVec.ofBool mono)

/-! ### The control operations (spec/43_control_ops.md) -/

/-- 43 R141: CFG in IDLE sets MODE, MASK_EN, MASK and nothing else; in ACTIVE it raises PROTOCOL. -/
def Obligations.CfgEffect : Prop :=
  ∀ (mono maskEn : Bool) (mask : Byte) (s : State),
    (s.state = .idle → exec (.cfg mono maskEn mask) s = .next { s with
      mode := if mono then .mono else .rgb332, maskEn := maskEn, mask := mask }) ∧
    (s.state = .active → exec (.cfg mono maskEn mask) s = .next { s with
      state := .fault, cause := .protocol, diag := argField (encode (.cfg mono maskEn mask)), diagop := 0x01 })

/-- 43 R142: SETW in IDLE sets WIDTH and nothing else; in ACTIVE it raises PROTOCOL. -/
def Obligations.SetwEffect : Prop :=
  ∀ (v : Dim) (s : State),
    (s.state = .idle → exec (.setw v) s = .next { s with width := v }) ∧
    (s.state = .active → exec (.setw v) s = .next { s with
      state := .fault, cause := .protocol, diag := v, diagop := 0x02 })

/-- 43 R143: SETH in IDLE sets HEIGHT and nothing else; in ACTIVE it raises PROTOCOL. -/
def Obligations.SethEffect : Prop :=
  ∀ (v : Dim) (s : State),
    (s.state = .idle → exec (.seth v) s = .next { s with height := v }) ∧
    (s.state = .active → exec (.seth v) s = .next { s with
      state := .fault, cause := .protocol, diag := v, diagop := 0x03 })

/-- 43 R144: BEGIN in IDLE, its three outcomes in the order of the rule; in ACTIVE it raises PROTOCOL. That a
skipped BEGIN leaves an earlier image's OB as it was is the model's inference (log 4): R144 only says that OB is not
created. A fresh all-zero OB is the empty list of nonzero bytes (log 3). -/
def Obligations.BeginEffect : Prop :=
  ∀ s : State,
    (s.state = .idle → exec .begin s = .next (
      if s.mode = .mono ∧ s.width.toNat % 8 ≠ 0 then
        { s with x := 0, y := 0, acc := 0, result := .skipped }
      else if s.width = 0 ∨ s.height = 0 then
        { s with x := 0, y := 0, acc := 0, obSize := some s.nbytes, ob := [], result := .done }
      else
        { s with
          x := 0, y := 0, acc := 0, obSize := some s.nbytes, ob := [], result := .none, state := .active })) ∧
    (s.state = .active → exec .begin s = .next { s with
      state := .fault, cause := .protocol, diag := 0, diagop := 0x04 })

/-- 43 R145: an image of zero area completes at once with an empty OB; in MONO mode a width that is not
divisible by 8 is skipped even when HEIGHT is 0. -/
def Obligations.BeginZeroArea : Prop :=
  ∀ s : State, s.state = .idle → (s.width = 0 ∨ s.height = 0) →
    ∃ t, exec .begin s = .next t ∧ t.state = .idle ∧ t.x = 0 ∧ t.y = 0 ∧
      if s.mode = .mono ∧ s.width.toNat % 8 ≠ 0 then t.result = .skipped
      else t.result = .done ∧ t.obBytes = some []

/-- 43 R146: the width skip in MONO mode is no fault, creates no OB and stores nothing, and a PIX sent after it
raises PROTOCOL; in RGB332 mode any width is acceptable. That an earlier image's OB stays as it was is the model's
inference (log 4) from "creates no OB and stores nothing". -/
def Obligations.BeginWidthSkip : Prop :=
  (∀ s : State, s.state = .idle → s.mode = .mono → s.width.extractLsb' 0 3 ≠ 0 →
    ∃ t, exec .begin s = .next t ∧ t.result = .skipped ∧ t.state = .idle ∧ t.cause = s.cause ∧
      t.obSize = s.obSize ∧ t.ob = s.ob ∧
      ∀ p, exec (.pix p) t = .next { t with
        state := .fault, cause := .protocol, diag := p, diagop := 0x05 }) ∧
  (∀ w : Dim, w.extractLsb' 0 3 ≠ 0 ↔ w.toNat % 8 ≠ 0) ∧
  (∀ s : State, s.state = .idle → s.mode = .rgb332 →
    ∃ t, exec .begin s = .next t ∧ t.result ≠ .skipped)

/-- 20 R53: a BEGIN that starts an image or completes one of zero area makes OB the all-zero byte sequence of
length NBYTES. -/
def Obligations.BeginZeroesBuffer : Prop :=
  ∀ s : State, s.state = .idle → ¬ (s.mode = .mono ∧ s.width.toNat % 8 ≠ 0) →
    ∃ t, exec .begin s = .next t ∧ t.obSize = some s.nbytes ∧
      (∀ a < s.nbytes, t.obByte a = some 0) ∧ (∀ a, s.nbytes ≤ a → t.obByte a = none)

/-- 43 R152, 60 R176: a legal command the current state does not allow raises PROTOCOL, with its operand and
opcode recorded. -/
def Obligations.ProtocolFault : Prop :=
  Cause.protocol.code = 6 ∧
  ∀ (i : Instr) (s : State),
    ((∃ p, i = .pix p) ∧ s.state = .idle ∨ (∀ p, i ≠ .pix p) ∧ s.state = .active) →
    exec i s = .next { s with
      state := .fault, cause := .protocol, diag := argField (encode i), diagop := opField (encode i) }

/-- 43 R150: in FAULT every accepted command, legal or illegal, is ignored. -/
def Obligations.FaultIgnoresCommands : Prop :=
  ∀ (s : State) (w : Command) (rest : List Input),
    s.state = .fault → s.inputs = .command w :: rest → step s = .next { s with inputs := rest }

/-! ### PIX in RGB332 mode (spec/41_rgb332_encoder.md) and `advance()` (spec/43_control_ops.md R148) -/

/-- 40 R101, 41 R110, R111, 43 R148: PIX in RGB332 mode. The mux gives the byte of a supported pixel, the mask byte or
TRANSPARENT_NO_MASK for a transparent one, and the reason of an unsupported one as the cause. A pixel it turns down raises the mux's cause and does nothing
else. A pixel it accepts stores its byte at `Y * WIDTH + X`, moves the position to the next pixel in raster order,
completes the image after the last pixel, and changes nothing else. -/
def Obligations.Rgb332PixelStep : Prop :=
  (∀ (p : Arg) (maskEn : Bool) (mask : Byte), select332 p maskEn mask = match lookup p with
    | .supported y => .byte y
    | .transparent => if maskEn then .byte mask else .cause .transparentNoMask
    | .unsupported .partialTransparency => .cause .partialTransparency
    | .unsupported .unsupportedChannel => .cause .unsupportedChannel) ∧
  ∀ (p : Arg) (s : State), s.state = .active → s.mode = .rgb332 →
    (∀ c, select332 p s.maskEn s.mask = .cause c → exec (.pix p) s = .next { s with
      state := .fault, cause := c, diag := p, diagop := 0x05 }) ∧
    ∀ (b : Byte) (n : Nat), select332 p s.maskEn s.mask = .byte b → s.x < s.width → s.y < s.height →
      s.obSize = some n → s.y.toNat * s.width.toNat + s.x.toNat < n →
      exec (.pix p) s = .next { s with
        ob := Memory.write s.ob (s.y.toNat * s.width.toNat + s.x.toNat) b
        x := if s.x.toNat + 1 < s.width.toNat then s.x + 1 else 0
        y := if s.x.toNat + 1 < s.width.toNat then s.y else s.y + 1
        state := if s.x.toNat + 1 < s.width.toNat ∨ s.y.toNat + 1 ≠ s.height.toNat then .active else .idle
        result :=
          if s.x.toNat + 1 < s.width.toNat ∨ s.y.toNat + 1 ≠ s.height.toNat then s.result else .done }

/-- 60 R171, 41 R113: a fully transparent pixel with no mask configured, whatever its colour channels. -/
def Obligations.TransparentNoMaskFaults : Prop :=
  Cause.transparentNoMask.code = 1 ∧
  ∀ (p : Arg) (s : State), s.state = .active → s.mode = .rgb332 →
    p.extractLsb' 0 8 = 0 → s.maskEn = false →
    exec (.pix p) s = .next { s with
      state := .fault, cause := .transparentNoMask, diag := p, diagop := 0x05 }

/-- 60 R172: alpha from 1 to 254, whatever the mask and the colour channels; in MONO mode such a pixel reports
cause 4. -/
def Obligations.PartialTransparencyFaults : Prop :=
  Cause.partialTransparency.code = 2 ∧ Cause.invalidMonoPixel.code = 4 ∧
  ∀ (p : Arg) (s : State), s.state = .active →
    1 ≤ (p.extractLsb' 0 8).toNat → (p.extractLsb' 0 8).toNat ≤ 254 →
    exec (.pix p) s = .next { s with
      state := .fault
      cause := match s.mode with
        | .rgb332 => .partialTransparency
        | .mono => .invalidMonoPixel
      diag := p, diagop := 0x05 }

/-- 60 R173: an opaque pixel with a channel outside its valid set, whatever the mask. -/
def Obligations.UnsupportedChannelFaults : Prop :=
  Cause.unsupportedChannel.code = 3 ∧
  ∀ (p : Arg) (s : State), s.state = .active → s.mode = .rgb332 →
    p.extractLsb' 0 8 = 255 →
    (quantR (p.extractLsb' 24 8) = none ∨ quantG (p.extractLsb' 16 8) = none ∨
      quantB (p.extractLsb' 8 8) = none) →
    exec (.pix p) s = .next { s with
      state := .fault, cause := .unsupportedChannel, diag := p, diagop := 0x05 }

/-- 41 R112: with a mask configured a fully transparent pixel stores MASK, whatever its red, green and blue are;
no fault and no trace in a status register but the position and the completion every stored pixel brings. -/
def Obligations.TransparentStoresMask : Prop :=
  ∀ (p : Arg) (s : State), Inv s → s.state = .active → s.mode = .rgb332 → s.maskEn = true →
    p.extractLsb' 0 8 = 0 →
    ∃ t, exec (.pix p) s = .next t ∧ t.obByte s.oaddr = some s.mask ∧
      t.state ≠ .fault ∧ t.cause = s.cause ∧ t.diag = s.diag ∧ t.diagop = s.diagop

/-- 41 R110, 40 R95, R96, R101: an opaque pixel whose three channels have codes stores their concatenation at OADDR.
41 R114: so it does under every mask setting, the stored byte being MASK itself not excepted. The codes are the
tables' (`QuantizeClosedForms`). -/
def Obligations.SupportedPixelStoresItsCode : Prop :=
  ∀ (p : Arg) (s : State) (cr cg : BitVec 3) (cb : BitVec 2), Inv s → s.state = .active → s.mode = .rgb332 →
    p.extractLsb' 0 8 = 255 → quantR (p.extractLsb' 24 8) = some cr → quantG (p.extractLsb' 16 8) = some cg →
    quantB (p.extractLsb' 8 8) = some cb →
    ∃ t, exec (.pix p) s = .next t ∧ t.obByte s.oaddr = some (cr ++ cg ++ cb) ∧
      (∀ a, a ≠ s.oaddr → t.obByte a = s.obByte a) ∧ t.maskEn = s.maskEn ∧ t.mask = s.mask ∧
      t.state ≠ .fault ∧ t.cause = s.cause ∧ t.diag = s.diag ∧ t.diagop = s.diagop

/-- 41 R115: the mask has no influence on a pixel that is not fully transparent. -/
def Obligations.MaskNeverRescues : Prop :=
  (∀ (p : Arg) (e e' : Bool) (m m' : Byte), p.extractLsb' 0 8 ≠ 0 → select332 p e m = select332 p e' m') ∧
  (∀ (s : State), s.state = .active → s.mode = .rgb332 → s.maskEn = true →
    exec (.pix (pack ⟨0, 0, 0, 1⟩)) s = .next { s with
      state := .fault, cause := .partialTransparency, diag := 0x00000001, diagop := 0x05 } ∧
    exec (.pix (pack ⟨1, 0, 0, 255⟩)) s = .next { s with
      state := .fault, cause := .unsupportedChannel, diag := 0x010000FF, diagop := 0x05 })

/-! ### PIX in MONO mode (spec/42_mono_packer.md) -/

/-- 42 R126: the two words the monochrome packer accepts. -/
def Obligations.MonoBitAcceptsTwoWords : Prop :=
  ∀ p : Arg, (monoBit p = .bit false ↔ p = 0x000000FF) ∧ (monoBit p = .bit true ↔ p = 0xFFFFFFFF) ∧
    (monoBit p = .invalid ↔ p ≠ 0x000000FF ∧ p ≠ 0xFFFFFFFF)

/-- 42 R125, 60 R174: PIX in MONO mode. A pixel neither pure black nor pure white faults with cause 4. Any other
ors its bit into ACC at position `7 - k`, `k = X mod 8`; for `k < 7` nothing is stored; at `k = 7` the byte is
stored at `Y * (WIDTH div 8) + (X div 8)` and ACC returns to 0; then the position advances. -/
def Obligations.MonoPixelStep : Prop :=
  Cause.invalidMonoPixel.code = 4 ∧
  ∀ (p : Arg) (s : State), s.state = .active → s.mode = .mono →
    (p ≠ 0x000000FF → p ≠ 0xFFFFFFFF → exec (.pix p) s = .next { s with
      state := .fault, cause := .invalidMonoPixel, diag := p, diagop := 0x05 }) ∧
    ∀ v : Bool, p = (if v then 0xFFFFFFFF else 0x000000FF) → s.x < s.width → s.y < s.height →
      (s.x.toNat % 8 ≠ 7 → exec (.pix p) s = .next { s with
        acc := s.acc ||| ((if v then 1 else 0) <<< (7 - s.x.toNat % 8))
        x := if s.x.toNat + 1 < s.width.toNat then s.x + 1 else 0
        y := if s.x.toNat + 1 < s.width.toNat then s.y else s.y + 1
        state := if s.x.toNat + 1 < s.width.toNat ∨ s.y.toNat + 1 ≠ s.height.toNat then .active else .idle
        result :=
          if s.x.toNat + 1 < s.width.toNat ∨ s.y.toNat + 1 ≠ s.height.toNat then s.result else .done }) ∧
      (∀ n, s.x.toNat % 8 = 7 → s.obSize = some n →
        s.y.toNat * (s.width.toNat / 8) + s.x.toNat / 8 < n →
        exec (.pix p) s = .next { s with
          ob := Memory.write s.ob (s.y.toNat * (s.width.toNat / 8) + s.x.toNat / 8)
            (s.acc ||| (if v then 1 else 0))
          acc := 0
          x := if s.x.toNat + 1 < s.width.toNat then s.x + 1 else 0
          y := if s.x.toNat + 1 < s.width.toNat then s.y else s.y + 1
          state := if s.x.toNat + 1 < s.width.toNat ∨ s.y.toNat + 1 ≠ s.height.toNat then .active else .idle
          result :=
            if s.x.toNat + 1 < s.width.toNat ∨ s.y.toNat + 1 ≠ s.height.toNat then s.result else .done })

/-- 42 R131: MONO mode ignores the mask: what PIX does is the same under every MASK_EN and MASK. -/
def Obligations.MonoIgnoresMask : Prop :=
  ∀ (p : Arg) (s t : State) (e : Bool) (m : Byte), s.mode = .mono → exec (.pix p) s = .next t →
    t.maskEn = s.maskEn ∧ t.mask = s.mask ∧
    exec (.pix p) { s with maskEn := e, mask := m } = .next { t with maskEn := e, mask := m }

/-- 41 R110: "ACC is not read or written" by PIX in RGB332 mode. -/
def Obligations.Rgb332IgnoresAcc : Prop :=
  ∀ (p : Arg) (s t : State) (v : Byte), s.mode = .rgb332 → exec (.pix p) s = .next t →
    t.acc = s.acc ∧ exec (.pix p) { s with acc := v } = .next { t with acc := v }

/-- Outside what the spec's rules cover, and in states no run reaches, PIX stops the MODEL by name: a store at an
index OB does not have, and an advance from a position outside the image, whether the PIX stores or only gathers a
bit. The model's choice (log 5, log 6), not the spec's: 20 R52 and 43 R148 only say that neither occurs. -/
def Obligations.PixOutsideImageStops : Prop :=
  ∀ (p : Arg) (s : State), s.state = .active →
    (∀ (a : Nat) (v : Byte), storeOf p s = some (a, v) →
      ((∀ n, s.obSize = some n → n ≤ a) → exec (.pix p) s = .fault (.storeOutsideBuffer a)) ∧
      (∀ n, s.obSize = some n → a < n → ¬ (s.x < s.width ∧ s.y < s.height) →
        exec (.pix p) s = .fault .positionOutsideImage)) ∧
    (s.mode = .mono → monoBit p ≠ .invalid → s.x.toNat % 8 ≠ 7 → ¬ (s.x < s.width ∧ s.y < s.height) →
      exec (.pix p) s = .fault .positionOutsideImage)

/-! ### The Lookup Table and the mux (spec/40_lookup_table.md) -/

/-- 40 R94: the closed forms of the three tables on all 256 values. -/
def Obligations.QuantizeClosedForms : Prop :=
  (∀ v : Byte, quantR v = if v = rep3 (v.extractLsb' 5 3) then some (v.extractLsb' 5 3) else none) ∧
  (∀ v : Byte, quantG v = if v = rep3 (v.extractLsb' 5 3) then some (v.extractLsb' 5 3) else none) ∧
  (∀ v : Byte, quantB v =
    if v = (v.extractLsb' 6 2).setWidth 8 * 0x55 then some (v.extractLsb' 6 2) else none) ∧
  (∀ i : Fin 8, quantR (BitVec.ofNat 8 ((2 * 255 * i.val + 7) / 14)) = some (BitVec.ofNat 3 i.val)) ∧
  (∀ i : Fin 4, quantB (BitVec.ofNat 8 (85 * i.val)) = some (BitVec.ofNat 2 i.val))

/-- 40 R95: `combine` is the concatenation of its three fields; or, exclusive or and sum agree on them. -/
def Obligations.CombineFields : Prop :=
  ∀ (cr cg : BitVec 3) (cb : BitVec 2),
    combine cr cg cb = cr ++ cg ++ cb ∧
    combine cr cg cb = (cr.setWidth 8 <<< 5) ^^^ (cg.setWidth 8 <<< 2) ^^^ cb.setWidth 8 ∧
    combine cr cg cb = (cr.setWidth 8 <<< 5) + (cg.setWidth 8 <<< 2) + cb.setWidth 8

/-- 40 R96, R98: which pixels fall in which class. -/
def Obligations.LookupClasses : Prop :=
  ∀ p : Arg,
    (lookup p = .transparent ↔ p.extractLsb' 0 8 = 0) ∧
    (lookup p = .unsupported .partialTransparency ↔
      1 ≤ (p.extractLsb' 0 8).toNat ∧ (p.extractLsb' 0 8).toNat ≤ 254) ∧
    (lookup p = .unsupported .unsupportedChannel ↔
      p.extractLsb' 0 8 = 255 ∧
      (quantR (p.extractLsb' 24 8) = none ∨ quantG (p.extractLsb' 16 8) = none ∨
        quantB (p.extractLsb' 8 8) = none)) ∧
    (∀ y, lookup p = .supported y ↔
      p.extractLsb' 0 8 = 255 ∧ ∃ cr cg cb,
        quantR (p.extractLsb' 24 8) = some cr ∧ quantG (p.extractLsb' 16 8) = some cg ∧
        quantB (p.extractLsb' 8 8) = some cb ∧ y = combine cr cg cb)

/-- 40 R99: a byte is produced by exactly one pixel, `r = rep3(y[7:5])`, `g = rep3(y[4:2])`, `b = y[1:0] * 0x55`,
`a = 0xFF`. -/
def Obligations.LookupIsBijection : Prop :=
  ∀ (p : Arg) (y : Byte), lookup p = .supported y ↔
    p = pack ⟨rep3 (y.extractLsb' 5 3), rep3 (y.extractLsb' 2 3), (y.extractLsb' 0 2).setWidth 8 * 0x55, 0xFF⟩

/-! ### The output buffer (spec/20_memory.md) and derived quantities (spec/10_state.md R40) -/

/-- 20 R52: `MemWrite(addr, 1, v)` stores `v` at `addr` and leaves every other byte of OB, and every register,
unchanged; the block issues it only with `addr < NBYTES`. The canonical form of OB is the invariant `Inv.ob_wf`. -/
def Obligations.MemWriteStoresOneByte : Prop :=
  (∀ (a n : Nat) (v : Byte) (s : State), Memory.wf s.ob → s.obSize = some n → a < n →
    ∃ t, memWrite a v s = .next t ∧ t.obByte a = some v ∧ (∀ b, b ≠ a → t.obByte b = s.obByte b) ∧
      t.obSize = s.obSize ∧ t.inputs = s.inputs ∧ s.sameRegisters t ∧ Memory.wf t.ob) ∧
  (∀ (p : Arg) (s : State) (a : Nat) (v : Byte), Inv s → storeOf p s = some (a, v) →
    a < s.nbytes ∧ s.obSize = some s.nbytes)

/-- 10 R40: NPIX, NBYTES and OADDR, and that none of them can overflow 64 bits. -/
def Obligations.IndexArithmeticFits : Prop :=
  ∀ s : State,
    s.npix = s.width.toNat * s.height.toNat ∧ s.npix < 2 ^ 64 ∧
    s.nbytes = (match s.mode with
      | .rgb332 => s.width.toNat * s.height.toNat
      | .mono => s.width.toNat / 8 * s.height.toNat) ∧ s.nbytes < 2 ^ 64 ∧
    s.oaddr = (match s.mode with
      | .rgb332 => s.y.toNat * s.width.toNat + s.x.toNat
      | .mono => s.y.toNat * (s.width.toNat / 8) + s.x.toNat / 8) ∧ s.oaddr < 2 ^ 64

/-- The store port shows the one store a PIX makes, at OADDR on 64 bits, and OB changes by that store alone
(20 R50, R52, R60; 92 D2). -/
def Obligations.StorePortShowsTheStore : Prop :=
  ∀ (p : Arg) (s t : State), exec (.pix p) s = .next t →
    match storePort p s with
    | none => t.ob = s.ob
    | some (addr, v) =>
      addr.toNat = s.oaddr ∧ t.ob = Memory.write s.ob addr.toNat v ∧ ∃ n, s.obSize = some n ∧ addr.toNat < n

/-- 20 R54: the block never reads memory. Whatever bytes OB holds, a step leaves the same registers and does the
same to OB: a PIX that stores writes the same byte at the same index, a BEGIN that creates an OB leaves the all-zero
one (20 R53), anything else leaves OB alone. That "anything else" takes in a skipped BEGIN is the model's inference
(log 4); the empty list for the all-zero OB is its representation (log 3). -/
def Obligations.BlockNeverReadsOb : Prop :=
  ∀ (s t : State) (m : List Host.Cell), step s = .next t →
    ∃ m', step { s with ob := m } = .next { t with ob := m' } ∧
      match s.inputs with
      | .command w :: _ =>
        match decode w with
        | .op (.pix p) =>
          storeOf p { s with ob := m } = storeOf p s ∧
          (match storeOf p s with
            | some (a, v) => a = s.oaddr ∧ t.ob = Memory.write s.ob a v ∧ m' = Memory.write m a v
            | none => t.ob = s.ob ∧ m' = m)
        | .op .begin =>
          if s.state = .idle ∧ ¬ (s.mode = .mono ∧ s.width.toNat % 8 ≠ 0) then t.ob = [] ∧ m' = []
          else t.ob = s.ob ∧ m' = m
        | _ => t.ob = s.ob ∧ m' = m
      | _ => t.ob = s.ob ∧ m' = m

/-! ### Frames (spec/10_state.md R36) -/

/-- The frame of CFG, SETW, SETH: each writes its own registers; only the fault PROTOCOL in ACTIVE writes STATE
and the fault registers; no byte of OB changes (10 R36). -/
def Obligations.ConfigurationFrame : Prop :=
  ∀ (i : Instr) (s t : State),
    ((∃ mono e m, i = .cfg mono e m) ∨ (∃ v, i = .setw v) ∨ (∃ v, i = .seth v)) → exec i s = .next t →
    t.acc = s.acc ∧ t.x = s.x ∧ t.y = s.y ∧ t.result = s.result ∧ t.obSize = s.obSize ∧
    t.inputs = s.inputs ∧ (∀ a, t.obByte a = s.obByte a) ∧
    ((∀ mono e m, i ≠ .cfg mono e m) → t.mode = s.mode ∧ t.maskEn = s.maskEn ∧ t.mask = s.mask) ∧
    ((∀ v, i ≠ .setw v) → t.width = s.width) ∧ ((∀ v, i ≠ .seth v) → t.height = s.height) ∧
    (s.state ≠ .idle → t.mode = s.mode ∧ t.maskEn = s.maskEn ∧ t.mask = s.mask ∧ t.width = s.width ∧
      t.height = s.height) ∧
    (s.state ≠ .active → t.state = s.state ∧ t.cause = s.cause ∧ t.diag = s.diag ∧ t.diagop = s.diagop)

/-- The frame of BEGIN (10 R36): the configuration stays; only the fault PROTOCOL in ACTIVE writes the fault
registers; OB stays unless an image starts or a zero-area image completes; in any state but IDLE the position,
ACC, RESULT and OB stay. That OB stays when the image is skipped is the model's inference (log 4) from 20 R51 and
43 R146. -/
def Obligations.BeginFrame : Prop :=
  ∀ s t : State, exec .begin s = .next t →
    t.mode = s.mode ∧ t.maskEn = s.maskEn ∧ t.mask = s.mask ∧ t.width = s.width ∧ t.height = s.height ∧
    t.inputs = s.inputs ∧
    (s.state ≠ .active → t.cause = s.cause ∧ t.diag = s.diag ∧ t.diagop = s.diagop) ∧
    (s.state = .fault → t.state = s.state) ∧
    (s.state ≠ .idle → t.acc = s.acc ∧ t.x = s.x ∧ t.y = s.y ∧ t.result = s.result) ∧
    (s.state ≠ .idle ∨ s.mode = .mono ∧ s.width.toNat % 8 ≠ 0 →
      t.obSize = s.obSize ∧ ∀ a, t.obByte a = s.obByte a) ∧
    (s.state = .idle → s.mode = .mono ∧ s.width.toNat % 8 ≠ 0 ∨ s.width = 0 ∨ s.height = 0 →
      t.state = s.state)

/-- The frame of PIX (10 R36): configuration and OB's size stay; ACC stays in RGB332 mode; the fault registers
are written by fault entry alone; a PIX that faults, or is ignored, keeps ACC, X, Y, RESULT and every byte; a
PIX that does not complete the image keeps STATE and RESULT; every byte but the one at OADDR stays, and every
byte where MONO mode stores nothing. -/
def Obligations.PixFrame : Prop :=
  ∀ (p : Arg) (s t : State), exec (.pix p) s = .next t →
    t.mode = s.mode ∧ t.maskEn = s.maskEn ∧ t.mask = s.mask ∧ t.width = s.width ∧ t.height = s.height ∧
    t.obSize = s.obSize ∧ t.inputs = s.inputs ∧ (s.mode = .rgb332 → t.acc = s.acc) ∧
    (t.state ≠ .fault ∨ s.state = .fault → t.cause = s.cause ∧ t.diag = s.diag ∧ t.diagop = s.diagop) ∧
    (t.state = .fault → t.acc = s.acc ∧ t.x = s.x ∧ t.y = s.y ∧ t.result = s.result ∧
      ∀ a, t.obByte a = s.obByte a) ∧
    (t.state ≠ .fault → s.x.toNat + 1 < s.width.toNat ∨ s.y.toNat + 1 ≠ s.height.toNat →
      t.state = s.state ∧ t.result = s.result) ∧
    (∀ a, a ≠ s.oaddr → t.obByte a = s.obByte a) ∧
    (s.mode = .mono → s.x.toNat % 8 ≠ 7 → ∀ a, t.obByte a = s.obByte a)

/-- A PIX that stores is read back at OADDR: the frame's other half (20 R52). -/
def Obligations.PixStoredByteReadsBack : Prop :=
  ∀ (p : Arg) (s t : State) (a : Nat) (v : Byte), Memory.wf s.ob → exec (.pix p) s = .next t →
    storeOf p s = some (a, v) → t.obByte a = some v

/-! ### Faults (spec/60_exceptions.md) -/

/-- 60 R170: whatever command faults and for whatever cause, fault entry writes STATE, CAUSE, DIAG and DIAGOP
from the word, and nothing else. -/
def Obligations.FaultEntryWritesFourRegisters : Prop :=
  ∀ (s t : State) (w : Command) (rest : List Input),
    s.inputs = .command w :: rest → s.state ≠ .fault → step s = .next t → t.state = .fault →
    ∃ c, c ≠ .none ∧ t = { s with
      inputs := rest, state := .fault, cause := c, diag := argField w, diagop := opField w }

/-- 60 R167: one command raises at most one fault, chosen in this order. -/
def Obligations.FaultPriority : Prop :=
  ∀ (s t : State) (w : Command) (rest : List Input),
    s.inputs = .command w :: rest → step s = .next t →
    if s.state = .fault then t = { s with inputs := rest }
    else
      match decode w with
      | .illegal _ => t.state = .fault ∧ t.cause = .illegal
      | .op (.pix p) =>
        if s.state = .idle then t.state = .fault ∧ t.cause = .protocol
        else
          match s.mode with
          | .rgb332 =>
            if p.extractLsb' 0 8 = 0 then
              if s.maskEn then t.state ≠ .fault else t.state = .fault ∧ t.cause = .transparentNoMask
            else if p.extractLsb' 0 8 ≠ 255 then t.state = .fault ∧ t.cause = .partialTransparency
            else if quantR (p.extractLsb' 24 8) = none ∨ quantG (p.extractLsb' 16 8) = none ∨
                quantB (p.extractLsb' 8 8) = none then
              t.state = .fault ∧ t.cause = .unsupportedChannel
            else t.state ≠ .fault
          | .mono =>
            if p = 0x000000FF ∨ p = 0xFFFFFFFF then t.state ≠ .fault
            else t.state = .fault ∧ t.cause = .invalidMonoPixel
      | .op _ =>
        if s.state = .active then t.state = .fault ∧ t.cause = .protocol else t.state ≠ .fault

/-- 60 R178: nothing but reset leaves FAULT, and the recorded fault stays the first. -/
def Obligations.OnlyResetLeavesFault : Prop :=
  ∀ s t : State, s.state = .fault → step s = .next t →
    (∃ rest, s.inputs = .reset :: rest ∧ t.state = .idle ∧ t.cause = .none) ∨
    (t.state = .fault ∧ t.cause = s.cause ∧ t.diag = s.diag ∧ t.diagop = s.diagop)

/-- The transitions of STATE (43 R140): reset to IDLE; IDLE to ACTIVE by a BEGIN that starts an image; ACTIVE to
IDLE by the last PIX; IDLE or ACTIVE to FAULT by a fault; no other. -/
def Obligations.StateTransitions : Prop :=
  ∀ s t : State, step s = .next t → t.state ≠ s.state →
    (∃ rest, s.inputs = .reset :: rest ∧ t.state = .idle) ∨
    (∃ w rest, s.inputs = .command w :: rest ∧
      (s.state = .idle ∧ t.state = .active ∧ decode w = .op .begin ∧ t.result = .none ∨
       s.state = .active ∧ t.state = .idle ∧ (∃ p, decode w = .op (.pix p)) ∧ t.result = .done ∧
         s.x.toNat + 1 = s.width.toNat ∧ s.y.toNat + 1 = s.height.toNat ∨
       s.state ≠ .fault ∧ t.state = .fault ∧ t.cause ≠ .none))

/-- How an image stands, read off STATE and RESULT (60 R184, 43 R154 to R157): it has ended, after its BEGIN, in
success, in a skip or in a fault, and in each case the host is told what the rules name: OB, nothing, or CAUSE and
DIAG. In FAULT RESULT is not looked at (60 R178). IDLE with RESULT = NONE is read as no image started: by 10 R29 none
has ended, and one in progress would be ACTIVE. -/
def Obligations.ImageEndings : Prop :=
  ∀ s : State,
    (∀ bytes, s.verdict = .done bytes ↔ s.state = .idle ∧ s.result = .done ∧ bytes = s.obBytes) ∧
    (s.verdict = .skipped ↔ s.state = .idle ∧ s.result = .skipped) ∧
    (∀ c d x y, s.verdict = .fatal c d x y ↔
      s.state = .fault ∧ c = s.cause ∧ d = s.diag ∧ x = s.x ∧ y = s.y) ∧
    (∀ x y, s.verdict = .wants x y ↔ s.state = .active ∧ x = s.x ∧ y = s.y) ∧
    (s.verdict = .notStarted ↔ s.state = .idle ∧ s.result = .none)

/-! ### Invariants and whole images -/

/-- The invariants of 10 R37 hold at reset. -/
def Obligations.InvAtReset : Prop := Inv State.reset

/-- 10 R37 (a) to (e): every step keeps the invariants, from every state that meets them. -/
def Obligations.StepKeepsInv : Prop := ∀ s t : State, Inv s → step s = .next t → Inv t

/-- Under the invariants no step stops the model: each accepted command completes (70 R203, 20 R52). -/
def Obligations.StepCompletesUnderInv : Prop := ∀ s : State, Inv s → ∃ t, step s = .next t

/-- 10 R37 (f), 20 R60: the stores of an image go to the indices 0, 1, 2, ... in that order. BEGIN puts OADDR at
0; a PIX that does not fault moves OADDR by one when it stores and leaves it when it does not; when the image
completes, OADDR has reached NBYTES. -/
def Obligations.StoresGoInAscendingOrder : Prop :=
  (∀ s t : State, s.state = .idle → exec .begin s = .next t → t.state = .active → t.oaddr = 0) ∧
  (∀ (p : Arg) (s t : State), Inv s → s.state = .active → exec (.pix p) s = .next t → t.state ≠ .fault →
    t.oaddr = s.oaddr + (if (storeOf p s).isSome then 1 else 0) ∧
    (∀ a v, storeOf p s = some (a, v) → a = s.oaddr) ∧
    (t.state = .idle → t.oaddr = t.nbytes))

/-- The PIX that carries the last pixel completes the image (43 R149). -/
def Obligations.LastPixelCompletesImage : Prop :=
  ∀ (p : Arg) (s : State), Inv s → s.state = .active →
    s.x.toNat + 1 = s.width.toNat → s.y.toNat + 1 = s.height.toNat →
    (match s.mode with
      | .rgb332 => ∃ b, select332 p s.maskEn s.mask = .byte b
      | .mono => monoBit p ≠ .invalid) →
    ∃ t, exec (.pix p) s = .next t ∧ t.state = .idle ∧ t.result = .done ∧ t.x = 0 ∧ t.y = t.height ∧
      t.acc = 0 ∧ t.mode = s.mode ∧ t.maskEn = s.maskEn ∧ t.mask = s.mask ∧ t.width = s.width ∧
      t.height = s.height ∧ t.obSize = some s.nbytes

/-- Nothing of one image influences the next (10 R38): two IDLE states with the same configuration and dimensions
agree, after a BEGIN that is not skipped, on all that the next image's PIX read or write. -/
def Obligations.NextImageForgetsTheLast : Prop :=
  ∀ s s' t t' : State, s.state = .idle → s'.state = .idle →
    s'.mode = s.mode → s'.maskEn = s.maskEn → s'.mask = s.mask → s'.width = s.width → s'.height = s.height →
    ¬ (s.mode = .mono ∧ s.width.toNat % 8 ≠ 0) →
    exec .begin s = .next t → exec .begin s' = .next t' →
    t' = { t with cause := s'.cause, diag := s'.diag, diagop := s'.diagop, inputs := s'.inputs }

/-- 41 R117: the command sequence of an image in RGB332 mode computes `encode332`. -/
def Obligations.Rgb332ImageRefinesEncode : Prop :=
  ∀ (s : State) (W H : Dim) (px : List Arg) (rest : List Input),
    s.state = .idle → s.mode = .rgb332 → px.length = W.toNat * H.toNat →
    s.inputs = imageInputs W H px ++ rest →
    match encode332 W.toNat H.toNat px s.maskEn s.mask with
    | .skipped => False
    | .ok bytes =>
      ∃ t, core.run (3 + px.length) s = .next t ∧ t.state = .idle ∧ t.result = .done ∧ t.x = 0 ∧
        t.y = (if W.toNat * H.toNat = 0 then 0 else H) ∧ t.obBytes = some bytes ∧ t.inputs = rest
    | .fatal c i q =>
      ∃ t, core.run (3 + (i + 1)) s = .next t ∧ px[i]? = some q ∧ t.state = .fault ∧ t.cause = c ∧
        t.diag = q ∧ t.diagop = 0x05 ∧ t.x.toNat = i % W.toNat ∧ t.y.toNat = i / W.toNat ∧
        t.result = .none ∧
        (∀ j < i, ∃ p b, px[j]? = some p ∧ select332 p s.maskEn s.mask = .byte b ∧ t.obByte j = some b) ∧
        (∀ j, i ≤ j → j < W.toNat * H.toNat → t.obByte j = some 0) ∧
        (∀ w l, step { t with inputs := .command w :: l } = .next { t with inputs := l })

/-- 42 R133: the command sequence of an image in MONO mode computes `encodeMono`. That an earlier image's OB stays as
it was when the image is skipped is the model's inference (log 4): R133 only says that no store has been made. -/
def Obligations.MonoImageRefinesEncode : Prop :=
  ∀ (s : State) (W H : Dim) (px : List Arg) (rest : List Input),
    s.state = .idle → s.mode = .mono → px.length = W.toNat * H.toNat →
    s.inputs = imageInputs W H px ++ rest →
    match encodeMono W.toNat H.toNat px with
    | .skipped =>
      ∃ t, core.run 3 s = .next t ∧ t.state = .idle ∧ t.result = .skipped ∧ t.ob = s.ob ∧
        t.obSize = s.obSize
    | .ok bytes =>
      ∃ t, core.run (3 + px.length) s = .next t ∧ t.state = .idle ∧ t.result = .done ∧ t.acc = 0 ∧ t.x = 0 ∧
        t.y = (if W.toNat * H.toNat = 0 then 0 else H) ∧ t.obBytes = some bytes ∧ t.inputs = rest
    | .fatal c i q =>
      ∃ t, core.run (3 + (i + 1)) s = .next t ∧ px[i]? = some q ∧ c = .invalidMonoPixel ∧
        t.state = .fault ∧ t.cause.code = 4 ∧ t.diag = q ∧ t.diagop = 0x05 ∧
        t.x.toNat = i % W.toNat ∧ t.y.toNat = i / W.toNat ∧ t.result = .none ∧
        t.acc = gatherFrom 0 ((px.take i).drop (8 * (i / 8))) ∧
        (∀ j < i / 8, t.obByte j = some (gatherFrom 0 ((px.drop (8 * j)).take 8))) ∧
        (∀ j, i / 8 ≤ j → j < W.toNat / 8 * H.toNat → t.obByte j = some 0) ∧
        (∀ w l, step { t with inputs := .command w :: l } = .next { t with inputs := l })
end

