-- ==== Sys2Proof/Laws/Encoding.lean ====
section
/-! SUPPORT. The two fields of a command word (spec/30_encoding.md rule R70), and selection by a row of the
opcode map (rule R72) field by field. -/

namespace Sys2Proof

@[simp] theorem opField_packCommand (op : Byte) (arg : Arg) : opField (packCommand op arg) = op :=
  BitVec.extractLsb'_append_eq_left

@[simp] theorem argField_packCommand (op : Byte) (arg : Arg) : argField (packCommand op arg) = arg :=
  BitVec.extractLsb'_append_eq_right

/-- A word is its two fields. -/
theorem packCommand_fields (w : Command) : packCommand (opField w) (argField w) = w := by
  apply BitVec.eq_of_getLsbD_eq
  intro i hi
  unfold packCommand opField argField
  rw [BitVec.getLsbD_append]
  split
  · simp_all
  · simp [show 32 + (i - 32) = i by omega]
    omega

/-- Two words are equal when their fields are. -/
theorem packCommand_inj {op op' : Byte} {arg arg' : Arg} :
    packCommand op arg = packCommand op' arg' ↔ op = op' ∧ arg = arg' := by
  constructor
  · intro h
    have ho := congrArg opField h
    have ha := congrArg argField h
    simp only [opField_packCommand, argField_packCommand] at ho ha
    exact ⟨ho, ha⟩
  · rintro ⟨rfl, rfl⟩
    rfl

/-- A row selects a word field by field. -/
theorem OpRow.selects_fields (r : OpRow) (w : Command) :
    r.selects w = true ↔
      opField w &&& opField r.mask = opField r.pattern ∧
      argField w &&& argField r.mask = argField r.pattern := by
  have key : w &&& r.mask = packCommand (opField w &&& opField r.mask) (argField w &&& argField r.mask) := by
    conv_lhs => rw [← packCommand_fields w, ← packCommand_fields r.mask]
    exact BitVec.and_append
  rw [OpRow.selects, beq_iff_eq, key]
  conv_lhs => rhs; rw [← packCommand_fields r.pattern]
  exact packCommand_inj

end Sys2Proof
end

