-- ==== Sys2Proof/Laws/Memory.lean ====
section
/-! SUPPORT. The laws of the output buffer's bytes: read after write, and that a write keeps the canonical form
and the bound on the listed addresses. -/

namespace Sys2Proof.Machine

@[simp] theorem Memory.read_nil (a : Nat) : Memory.read [] a = 0#8 := rfl

theorem Memory.wf_nil : Memory.wf [] := ⟨List.Pairwise.nil, by simp⟩

theorem Memory.wf_tail {c : Host.Cell} {m : List Host.Cell} (h : Memory.wf (c :: m)) : Memory.wf m :=
  ⟨(List.pairwise_cons.1 h.1).2, fun d hd => h.2 d (List.mem_cons_of_mem _ hd)⟩

/-- Below the first listed address nothing is listed, so 0 is read. -/
theorem Memory.read_eq_zero {m : List Host.Cell} {a : Nat} (h : ∀ c ∈ m, a < c.1) : Memory.read m a = 0#8 := by
  induction m with
  | nil => rfl
  | cons c m ih =>
    obtain ⟨b, u⟩ := c
    have hb : a < b := h (b, u) (by simp)
    simp only [Memory.read, if_neg (Nat.ne_of_lt hb)]
    exact ih fun d hd => h d (List.mem_cons_of_mem _ hd)

/-- A write is read back. -/
theorem Memory.read_write_same {m : List Host.Cell} (h : Memory.wf m) (a : Nat) (v : Byte) :
    Memory.read (Memory.write m a v) a = v := by
  induction m with
  | nil => by_cases hv : v = 0#8 <;> simp [Memory.write, Memory.read, hv]
  | cons c m ih =>
    obtain ⟨b, u⟩ := c
    have above : ∀ d ∈ m, b < d.1 := (List.pairwise_cons.1 h.1).1
    by_cases hlt : a < b
    · by_cases hv : v = 0#8
      · have : Memory.read m a = 0#8 := Memory.read_eq_zero fun d hd => Nat.lt_trans hlt (above d hd)
        simp [Memory.write, Memory.read, hlt, hv, Nat.ne_of_lt hlt, this]
      · simp [Memory.write, Memory.read, hlt, hv]
    · by_cases hab : a = b
      · subst hab
        by_cases hv : v = 0#8
        · simp [Memory.write, hv, Memory.read_eq_zero above]
        · simp [Memory.write, Memory.read, hv]
      · simp [Memory.write, Memory.read, hlt, hab, ih (Memory.wf_tail h)]

/-- A write leaves every other byte alone. -/
theorem Memory.read_write_other (m : List Host.Cell) {a b : Nat} (hab : b ≠ a) (v : Byte) :
    Memory.read (Memory.write m a v) b = Memory.read m b := by
  induction m with
  | nil => by_cases hv : v = 0#8 <;> simp [Memory.write, Memory.read, hv, hab]
  | cons c m ih =>
    obtain ⟨d, u⟩ := c
    by_cases hlt : a < d
    · by_cases hv : v = 0#8 <;> simp [Memory.write, Memory.read, hlt, hv, hab]
    · by_cases had : a = d
      · subst had
        by_cases hv : v = 0#8 <;> simp [Memory.write, Memory.read, hv, hab]
      · simp [Memory.write, Memory.read, hlt, had, ih]

/-- What a write lists: the written byte, if it is not 0, and what was listed before. -/
theorem Memory.mem_write {m : List Host.Cell} {a : Nat} {v : Byte} {c : Host.Cell}
    (h : c ∈ Memory.write m a v) : (c = (a, v) ∧ v ≠ 0#8) ∨ c ∈ m := by
  induction m with
  | nil =>
    by_cases hv : v = 0#8 <;> simp [Memory.write, hv] at h
    exact .inl ⟨h, hv⟩
  | cons d m ih =>
    obtain ⟨b, u⟩ := d
    simp only [Memory.write] at h
    split at h
    · split at h
      · exact .inr h
      · rcases List.mem_cons.1 h with h | h
        · exact .inl ⟨h, ‹_›⟩
        · exact .inr h
    · split at h
      · split at h
        · exact .inr (List.mem_cons_of_mem _ h)
        · rcases List.mem_cons.1 h with h | h
          · exact .inl ⟨h, ‹_›⟩
          · exact .inr (List.mem_cons_of_mem _ h)
      · rcases List.mem_cons.1 h with h | h
        · exact .inr (h ▸ List.mem_cons_self)
        · exact (ih h).imp id (List.mem_cons_of_mem _)

/-- A write keeps the canonical form. -/
theorem Memory.write_wf {m : List Host.Cell} (h : Memory.wf m) (a : Nat) (v : Byte) :
    Memory.wf (Memory.write m a v) := by
  refine ⟨?_, fun c hc => ?_⟩
  · induction m with
    | nil => by_cases hv : v = 0#8 <;> simp [Memory.write, hv]
    | cons c m ih =>
      obtain ⟨b, u⟩ := c
      have above : ∀ d ∈ m, b < d.1 := (List.pairwise_cons.1 h.1).1
      simp only [Memory.write]
      split
      · split
        · exact h.1
        · refine List.pairwise_cons.2 ⟨fun d hd => ?_, h.1⟩
          rcases List.mem_cons.1 hd with rfl | hd
          · assumption
          · exact Nat.lt_trans ‹a < b› (above d hd)
      · split
        · subst b
          split
          · exact (Memory.wf_tail h).1
          · exact List.pairwise_cons.2 ⟨above, (Memory.wf_tail h).1⟩
        · refine List.pairwise_cons.2 ⟨fun d hd => ?_, ih (Memory.wf_tail h)⟩
          rcases Memory.mem_write hd with ⟨rfl, -⟩ | hd
          · show b < a
            omega
          · exact above d hd
  · rcases Memory.mem_write hc with ⟨rfl, hv⟩ | hc
    · exact hv
    · exact h.2 c hc

/-- A write at an index below a bound keeps every listed address below it. -/
theorem Memory.write_below {m : List Host.Cell} {n a : Nat} {v : Byte} (h : ∀ c ∈ m, c.1 < n) (ha : a < n) :
    ∀ c ∈ Memory.write m a v, c.1 < n := fun c hc => by
  rcases Memory.mem_write hc with ⟨rfl, -⟩ | hc
  · exact ha
  · exact h c hc

end Sys2Proof.Machine
end

