-- ==== Sys2Proof/Laws/State.lean ====
section
/-! SUPPORT. What each register write of Machine/Ops leaves in each field of State: one lemma per field and
update, true by definition, so that no later proof unfolds a record update. -/

namespace Sys2Proof.Machine

variable (s : State)

/-! ### configure -/

@[simp] theorem State.configure_acc (m : Mode) (e : Bool) (k : Byte) : (s.configure m e k).acc = s.acc := rfl
@[simp] theorem State.configure_mode (m : Mode) (e : Bool) (k : Byte) : (s.configure m e k).mode = m := rfl
@[simp] theorem State.configure_maskEn (m : Mode) (e : Bool) (k : Byte) : (s.configure m e k).maskEn = e := rfl
@[simp] theorem State.configure_mask (m : Mode) (e : Bool) (k : Byte) : (s.configure m e k).mask = k := rfl
@[simp] theorem State.configure_width (m : Mode) (e : Bool) (k : Byte) : (s.configure m e k).width = s.width := rfl
@[simp] theorem State.configure_height (m : Mode) (e : Bool) (k : Byte) : (s.configure m e k).height = s.height := rfl
@[simp] theorem State.configure_state (m : Mode) (e : Bool) (k : Byte) : (s.configure m e k).state = s.state := rfl
@[simp] theorem State.configure_result (m : Mode) (e : Bool) (k : Byte) : (s.configure m e k).result = s.result := rfl
@[simp] theorem State.configure_x (m : Mode) (e : Bool) (k : Byte) : (s.configure m e k).x = s.x := rfl
@[simp] theorem State.configure_y (m : Mode) (e : Bool) (k : Byte) : (s.configure m e k).y = s.y := rfl
@[simp] theorem State.configure_cause (m : Mode) (e : Bool) (k : Byte) : (s.configure m e k).cause = s.cause := rfl
@[simp] theorem State.configure_diag (m : Mode) (e : Bool) (k : Byte) : (s.configure m e k).diag = s.diag := rfl
@[simp] theorem State.configure_diagop (m : Mode) (e : Bool) (k : Byte) : (s.configure m e k).diagop = s.diagop := rfl
@[simp] theorem State.configure_obSize (m : Mode) (e : Bool) (k : Byte) : (s.configure m e k).obSize = s.obSize := rfl
@[simp] theorem State.configure_ob (m : Mode) (e : Bool) (k : Byte) : (s.configure m e k).ob = s.ob := rfl
@[simp] theorem State.configure_inputs (m : Mode) (e : Bool) (k : Byte) : (s.configure m e k).inputs = s.inputs := rfl

/-! ### setWidth -/

@[simp] theorem State.setWidth_acc (v : Dim) : (s.setWidth v).acc = s.acc := rfl
@[simp] theorem State.setWidth_mode (v : Dim) : (s.setWidth v).mode = s.mode := rfl
@[simp] theorem State.setWidth_maskEn (v : Dim) : (s.setWidth v).maskEn = s.maskEn := rfl
@[simp] theorem State.setWidth_mask (v : Dim) : (s.setWidth v).mask = s.mask := rfl
@[simp] theorem State.setWidth_width (v : Dim) : (s.setWidth v).width = v := rfl
@[simp] theorem State.setWidth_height (v : Dim) : (s.setWidth v).height = s.height := rfl
@[simp] theorem State.setWidth_state (v : Dim) : (s.setWidth v).state = s.state := rfl
@[simp] theorem State.setWidth_result (v : Dim) : (s.setWidth v).result = s.result := rfl
@[simp] theorem State.setWidth_x (v : Dim) : (s.setWidth v).x = s.x := rfl
@[simp] theorem State.setWidth_y (v : Dim) : (s.setWidth v).y = s.y := rfl
@[simp] theorem State.setWidth_cause (v : Dim) : (s.setWidth v).cause = s.cause := rfl
@[simp] theorem State.setWidth_diag (v : Dim) : (s.setWidth v).diag = s.diag := rfl
@[simp] theorem State.setWidth_diagop (v : Dim) : (s.setWidth v).diagop = s.diagop := rfl
@[simp] theorem State.setWidth_obSize (v : Dim) : (s.setWidth v).obSize = s.obSize := rfl
@[simp] theorem State.setWidth_ob (v : Dim) : (s.setWidth v).ob = s.ob := rfl
@[simp] theorem State.setWidth_inputs (v : Dim) : (s.setWidth v).inputs = s.inputs := rfl

/-! ### setHeight -/

@[simp] theorem State.setHeight_acc (v : Dim) : (s.setHeight v).acc = s.acc := rfl
@[simp] theorem State.setHeight_mode (v : Dim) : (s.setHeight v).mode = s.mode := rfl
@[simp] theorem State.setHeight_maskEn (v : Dim) : (s.setHeight v).maskEn = s.maskEn := rfl
@[simp] theorem State.setHeight_mask (v : Dim) : (s.setHeight v).mask = s.mask := rfl
@[simp] theorem State.setHeight_width (v : Dim) : (s.setHeight v).width = s.width := rfl
@[simp] theorem State.setHeight_height (v : Dim) : (s.setHeight v).height = v := rfl
@[simp] theorem State.setHeight_state (v : Dim) : (s.setHeight v).state = s.state := rfl
@[simp] theorem State.setHeight_result (v : Dim) : (s.setHeight v).result = s.result := rfl
@[simp] theorem State.setHeight_x (v : Dim) : (s.setHeight v).x = s.x := rfl
@[simp] theorem State.setHeight_y (v : Dim) : (s.setHeight v).y = s.y := rfl
@[simp] theorem State.setHeight_cause (v : Dim) : (s.setHeight v).cause = s.cause := rfl
@[simp] theorem State.setHeight_diag (v : Dim) : (s.setHeight v).diag = s.diag := rfl
@[simp] theorem State.setHeight_diagop (v : Dim) : (s.setHeight v).diagop = s.diagop := rfl
@[simp] theorem State.setHeight_obSize (v : Dim) : (s.setHeight v).obSize = s.obSize := rfl
@[simp] theorem State.setHeight_ob (v : Dim) : (s.setHeight v).ob = s.ob := rfl
@[simp] theorem State.setHeight_inputs (v : Dim) : (s.setHeight v).inputs = s.inputs := rfl

/-! ### clearPosition -/

@[simp] theorem State.clearPosition_acc : (s.clearPosition).acc = 0 := rfl
@[simp] theorem State.clearPosition_mode : (s.clearPosition).mode = s.mode := rfl
@[simp] theorem State.clearPosition_maskEn : (s.clearPosition).maskEn = s.maskEn := rfl
@[simp] theorem State.clearPosition_mask : (s.clearPosition).mask = s.mask := rfl
@[simp] theorem State.clearPosition_width : (s.clearPosition).width = s.width := rfl
@[simp] theorem State.clearPosition_height : (s.clearPosition).height = s.height := rfl
@[simp] theorem State.clearPosition_state : (s.clearPosition).state = s.state := rfl
@[simp] theorem State.clearPosition_result : (s.clearPosition).result = s.result := rfl
@[simp] theorem State.clearPosition_x : (s.clearPosition).x = 0 := rfl
@[simp] theorem State.clearPosition_y : (s.clearPosition).y = 0 := rfl
@[simp] theorem State.clearPosition_cause : (s.clearPosition).cause = s.cause := rfl
@[simp] theorem State.clearPosition_diag : (s.clearPosition).diag = s.diag := rfl
@[simp] theorem State.clearPosition_diagop : (s.clearPosition).diagop = s.diagop := rfl
@[simp] theorem State.clearPosition_obSize : (s.clearPosition).obSize = s.obSize := rfl
@[simp] theorem State.clearPosition_ob : (s.clearPosition).ob = s.ob := rfl
@[simp] theorem State.clearPosition_inputs : (s.clearPosition).inputs = s.inputs := rfl

/-! ### newBuffer -/

@[simp] theorem State.newBuffer_acc (n : Nat) : (s.newBuffer n).acc = s.acc := rfl
@[simp] theorem State.newBuffer_mode (n : Nat) : (s.newBuffer n).mode = s.mode := rfl
@[simp] theorem State.newBuffer_maskEn (n : Nat) : (s.newBuffer n).maskEn = s.maskEn := rfl
@[simp] theorem State.newBuffer_mask (n : Nat) : (s.newBuffer n).mask = s.mask := rfl
@[simp] theorem State.newBuffer_width (n : Nat) : (s.newBuffer n).width = s.width := rfl
@[simp] theorem State.newBuffer_height (n : Nat) : (s.newBuffer n).height = s.height := rfl
@[simp] theorem State.newBuffer_state (n : Nat) : (s.newBuffer n).state = s.state := rfl
@[simp] theorem State.newBuffer_result (n : Nat) : (s.newBuffer n).result = s.result := rfl
@[simp] theorem State.newBuffer_x (n : Nat) : (s.newBuffer n).x = s.x := rfl
@[simp] theorem State.newBuffer_y (n : Nat) : (s.newBuffer n).y = s.y := rfl
@[simp] theorem State.newBuffer_cause (n : Nat) : (s.newBuffer n).cause = s.cause := rfl
@[simp] theorem State.newBuffer_diag (n : Nat) : (s.newBuffer n).diag = s.diag := rfl
@[simp] theorem State.newBuffer_diagop (n : Nat) : (s.newBuffer n).diagop = s.diagop := rfl
@[simp] theorem State.newBuffer_obSize (n : Nat) : (s.newBuffer n).obSize = some n := rfl
@[simp] theorem State.newBuffer_ob (n : Nat) : (s.newBuffer n).ob = [] := rfl
@[simp] theorem State.newBuffer_inputs (n : Nat) : (s.newBuffer n).inputs = s.inputs := rfl

/-! ### setResult -/

@[simp] theorem State.setResult_acc (r : Result) : (s.setResult r).acc = s.acc := rfl
@[simp] theorem State.setResult_mode (r : Result) : (s.setResult r).mode = s.mode := rfl
@[simp] theorem State.setResult_maskEn (r : Result) : (s.setResult r).maskEn = s.maskEn := rfl
@[simp] theorem State.setResult_mask (r : Result) : (s.setResult r).mask = s.mask := rfl
@[simp] theorem State.setResult_width (r : Result) : (s.setResult r).width = s.width := rfl
@[simp] theorem State.setResult_height (r : Result) : (s.setResult r).height = s.height := rfl
@[simp] theorem State.setResult_state (r : Result) : (s.setResult r).state = s.state := rfl
@[simp] theorem State.setResult_result (r : Result) : (s.setResult r).result = r := rfl
@[simp] theorem State.setResult_x (r : Result) : (s.setResult r).x = s.x := rfl
@[simp] theorem State.setResult_y (r : Result) : (s.setResult r).y = s.y := rfl
@[simp] theorem State.setResult_cause (r : Result) : (s.setResult r).cause = s.cause := rfl
@[simp] theorem State.setResult_diag (r : Result) : (s.setResult r).diag = s.diag := rfl
@[simp] theorem State.setResult_diagop (r : Result) : (s.setResult r).diagop = s.diagop := rfl
@[simp] theorem State.setResult_obSize (r : Result) : (s.setResult r).obSize = s.obSize := rfl
@[simp] theorem State.setResult_ob (r : Result) : (s.setResult r).ob = s.ob := rfl
@[simp] theorem State.setResult_inputs (r : Result) : (s.setResult r).inputs = s.inputs := rfl

/-! ### setRunState -/

@[simp] theorem State.setRunState_acc (r : RunState) : (s.setRunState r).acc = s.acc := rfl
@[simp] theorem State.setRunState_mode (r : RunState) : (s.setRunState r).mode = s.mode := rfl
@[simp] theorem State.setRunState_maskEn (r : RunState) : (s.setRunState r).maskEn = s.maskEn := rfl
@[simp] theorem State.setRunState_mask (r : RunState) : (s.setRunState r).mask = s.mask := rfl
@[simp] theorem State.setRunState_width (r : RunState) : (s.setRunState r).width = s.width := rfl
@[simp] theorem State.setRunState_height (r : RunState) : (s.setRunState r).height = s.height := rfl
@[simp] theorem State.setRunState_state (r : RunState) : (s.setRunState r).state = r := rfl
@[simp] theorem State.setRunState_result (r : RunState) : (s.setRunState r).result = s.result := rfl
@[simp] theorem State.setRunState_x (r : RunState) : (s.setRunState r).x = s.x := rfl
@[simp] theorem State.setRunState_y (r : RunState) : (s.setRunState r).y = s.y := rfl
@[simp] theorem State.setRunState_cause (r : RunState) : (s.setRunState r).cause = s.cause := rfl
@[simp] theorem State.setRunState_diag (r : RunState) : (s.setRunState r).diag = s.diag := rfl
@[simp] theorem State.setRunState_diagop (r : RunState) : (s.setRunState r).diagop = s.diagop := rfl
@[simp] theorem State.setRunState_obSize (r : RunState) : (s.setRunState r).obSize = s.obSize := rfl
@[simp] theorem State.setRunState_ob (r : RunState) : (s.setRunState r).ob = s.ob := rfl
@[simp] theorem State.setRunState_inputs (r : RunState) : (s.setRunState r).inputs = s.inputs := rfl

/-! ### setAcc -/

@[simp] theorem State.setAcc_acc (v : Byte) : (s.setAcc v).acc = v := rfl
@[simp] theorem State.setAcc_mode (v : Byte) : (s.setAcc v).mode = s.mode := rfl
@[simp] theorem State.setAcc_maskEn (v : Byte) : (s.setAcc v).maskEn = s.maskEn := rfl
@[simp] theorem State.setAcc_mask (v : Byte) : (s.setAcc v).mask = s.mask := rfl
@[simp] theorem State.setAcc_width (v : Byte) : (s.setAcc v).width = s.width := rfl
@[simp] theorem State.setAcc_height (v : Byte) : (s.setAcc v).height = s.height := rfl
@[simp] theorem State.setAcc_state (v : Byte) : (s.setAcc v).state = s.state := rfl
@[simp] theorem State.setAcc_result (v : Byte) : (s.setAcc v).result = s.result := rfl
@[simp] theorem State.setAcc_x (v : Byte) : (s.setAcc v).x = s.x := rfl
@[simp] theorem State.setAcc_y (v : Byte) : (s.setAcc v).y = s.y := rfl
@[simp] theorem State.setAcc_cause (v : Byte) : (s.setAcc v).cause = s.cause := rfl
@[simp] theorem State.setAcc_diag (v : Byte) : (s.setAcc v).diag = s.diag := rfl
@[simp] theorem State.setAcc_diagop (v : Byte) : (s.setAcc v).diagop = s.diagop := rfl
@[simp] theorem State.setAcc_obSize (v : Byte) : (s.setAcc v).obSize = s.obSize := rfl
@[simp] theorem State.setAcc_ob (v : Byte) : (s.setAcc v).ob = s.ob := rfl
@[simp] theorem State.setAcc_inputs (v : Byte) : (s.setAcc v).inputs = s.inputs := rfl

/-! ### setPosition -/

@[simp] theorem State.setPosition_acc (a b : Dim) : (s.setPosition a b).acc = s.acc := rfl
@[simp] theorem State.setPosition_mode (a b : Dim) : (s.setPosition a b).mode = s.mode := rfl
@[simp] theorem State.setPosition_maskEn (a b : Dim) : (s.setPosition a b).maskEn = s.maskEn := rfl
@[simp] theorem State.setPosition_mask (a b : Dim) : (s.setPosition a b).mask = s.mask := rfl
@[simp] theorem State.setPosition_width (a b : Dim) : (s.setPosition a b).width = s.width := rfl
@[simp] theorem State.setPosition_height (a b : Dim) : (s.setPosition a b).height = s.height := rfl
@[simp] theorem State.setPosition_state (a b : Dim) : (s.setPosition a b).state = s.state := rfl
@[simp] theorem State.setPosition_result (a b : Dim) : (s.setPosition a b).result = s.result := rfl
@[simp] theorem State.setPosition_x (a b : Dim) : (s.setPosition a b).x = a := rfl
@[simp] theorem State.setPosition_y (a b : Dim) : (s.setPosition a b).y = b := rfl
@[simp] theorem State.setPosition_cause (a b : Dim) : (s.setPosition a b).cause = s.cause := rfl
@[simp] theorem State.setPosition_diag (a b : Dim) : (s.setPosition a b).diag = s.diag := rfl
@[simp] theorem State.setPosition_diagop (a b : Dim) : (s.setPosition a b).diagop = s.diagop := rfl
@[simp] theorem State.setPosition_obSize (a b : Dim) : (s.setPosition a b).obSize = s.obSize := rfl
@[simp] theorem State.setPosition_ob (a b : Dim) : (s.setPosition a b).ob = s.ob := rfl
@[simp] theorem State.setPosition_inputs (a b : Dim) : (s.setPosition a b).inputs = s.inputs := rfl

/-! ### writeOb -/

@[simp] theorem State.writeOb_acc (a : Nat) (v : Byte) : (s.writeOb a v).acc = s.acc := rfl
@[simp] theorem State.writeOb_mode (a : Nat) (v : Byte) : (s.writeOb a v).mode = s.mode := rfl
@[simp] theorem State.writeOb_maskEn (a : Nat) (v : Byte) : (s.writeOb a v).maskEn = s.maskEn := rfl
@[simp] theorem State.writeOb_mask (a : Nat) (v : Byte) : (s.writeOb a v).mask = s.mask := rfl
@[simp] theorem State.writeOb_width (a : Nat) (v : Byte) : (s.writeOb a v).width = s.width := rfl
@[simp] theorem State.writeOb_height (a : Nat) (v : Byte) : (s.writeOb a v).height = s.height := rfl
@[simp] theorem State.writeOb_state (a : Nat) (v : Byte) : (s.writeOb a v).state = s.state := rfl
@[simp] theorem State.writeOb_result (a : Nat) (v : Byte) : (s.writeOb a v).result = s.result := rfl
@[simp] theorem State.writeOb_x (a : Nat) (v : Byte) : (s.writeOb a v).x = s.x := rfl
@[simp] theorem State.writeOb_y (a : Nat) (v : Byte) : (s.writeOb a v).y = s.y := rfl
@[simp] theorem State.writeOb_cause (a : Nat) (v : Byte) : (s.writeOb a v).cause = s.cause := rfl
@[simp] theorem State.writeOb_diag (a : Nat) (v : Byte) : (s.writeOb a v).diag = s.diag := rfl
@[simp] theorem State.writeOb_diagop (a : Nat) (v : Byte) : (s.writeOb a v).diagop = s.diagop := rfl
@[simp] theorem State.writeOb_obSize (a : Nat) (v : Byte) : (s.writeOb a v).obSize = s.obSize := rfl
@[simp] theorem State.writeOb_ob (a : Nat) (v : Byte) : (s.writeOb a v).ob = Memory.write s.ob a v := rfl
@[simp] theorem State.writeOb_inputs (a : Nat) (v : Byte) : (s.writeOb a v).inputs = s.inputs := rfl

/-! ### setInputs -/

@[simp] theorem State.setInputs_acc (l : List Input) : (s.setInputs l).acc = s.acc := rfl
@[simp] theorem State.setInputs_mode (l : List Input) : (s.setInputs l).mode = s.mode := rfl
@[simp] theorem State.setInputs_maskEn (l : List Input) : (s.setInputs l).maskEn = s.maskEn := rfl
@[simp] theorem State.setInputs_mask (l : List Input) : (s.setInputs l).mask = s.mask := rfl
@[simp] theorem State.setInputs_width (l : List Input) : (s.setInputs l).width = s.width := rfl
@[simp] theorem State.setInputs_height (l : List Input) : (s.setInputs l).height = s.height := rfl
@[simp] theorem State.setInputs_state (l : List Input) : (s.setInputs l).state = s.state := rfl
@[simp] theorem State.setInputs_result (l : List Input) : (s.setInputs l).result = s.result := rfl
@[simp] theorem State.setInputs_x (l : List Input) : (s.setInputs l).x = s.x := rfl
@[simp] theorem State.setInputs_y (l : List Input) : (s.setInputs l).y = s.y := rfl
@[simp] theorem State.setInputs_cause (l : List Input) : (s.setInputs l).cause = s.cause := rfl
@[simp] theorem State.setInputs_diag (l : List Input) : (s.setInputs l).diag = s.diag := rfl
@[simp] theorem State.setInputs_diagop (l : List Input) : (s.setInputs l).diagop = s.diagop := rfl
@[simp] theorem State.setInputs_obSize (l : List Input) : (s.setInputs l).obSize = s.obSize := rfl
@[simp] theorem State.setInputs_ob (l : List Input) : (s.setInputs l).ob = s.ob := rfl
@[simp] theorem State.setInputs_inputs (l : List Input) : (s.setInputs l).inputs = l := rfl

/-! ### enterFault -/

@[simp] theorem State.enterFault_acc (c : Cause) (op : Byte) (arg : Arg) : (s.enterFault c op arg).acc = s.acc := rfl
@[simp] theorem State.enterFault_mode (c : Cause) (op : Byte) (arg : Arg) : (s.enterFault c op arg).mode = s.mode := rfl
@[simp] theorem State.enterFault_maskEn (c : Cause) (op : Byte) (arg : Arg) : (s.enterFault c op arg).maskEn = s.maskEn := rfl
@[simp] theorem State.enterFault_mask (c : Cause) (op : Byte) (arg : Arg) : (s.enterFault c op arg).mask = s.mask := rfl
@[simp] theorem State.enterFault_width (c : Cause) (op : Byte) (arg : Arg) : (s.enterFault c op arg).width = s.width := rfl
@[simp] theorem State.enterFault_height (c : Cause) (op : Byte) (arg : Arg) : (s.enterFault c op arg).height = s.height := rfl
@[simp] theorem State.enterFault_state (c : Cause) (op : Byte) (arg : Arg) : (s.enterFault c op arg).state = .fault := rfl
@[simp] theorem State.enterFault_result (c : Cause) (op : Byte) (arg : Arg) : (s.enterFault c op arg).result = s.result := rfl
@[simp] theorem State.enterFault_x (c : Cause) (op : Byte) (arg : Arg) : (s.enterFault c op arg).x = s.x := rfl
@[simp] theorem State.enterFault_y (c : Cause) (op : Byte) (arg : Arg) : (s.enterFault c op arg).y = s.y := rfl
@[simp] theorem State.enterFault_cause (c : Cause) (op : Byte) (arg : Arg) : (s.enterFault c op arg).cause = c := rfl
@[simp] theorem State.enterFault_diag (c : Cause) (op : Byte) (arg : Arg) : (s.enterFault c op arg).diag = arg := rfl
@[simp] theorem State.enterFault_diagop (c : Cause) (op : Byte) (arg : Arg) : (s.enterFault c op arg).diagop = op := rfl
@[simp] theorem State.enterFault_obSize (c : Cause) (op : Byte) (arg : Arg) : (s.enterFault c op arg).obSize = s.obSize := rfl
@[simp] theorem State.enterFault_ob (c : Cause) (op : Byte) (arg : Arg) : (s.enterFault c op arg).ob = s.ob := rfl
@[simp] theorem State.enterFault_inputs (c : Cause) (op : Byte) (arg : Arg) : (s.enterFault c op arg).inputs = s.inputs := rfl

/-! ### resetBlock -/

@[simp] theorem State.resetBlock_acc : (s.resetBlock).acc = 0 := rfl
@[simp] theorem State.resetBlock_mode : (s.resetBlock).mode = .rgb332 := rfl
@[simp] theorem State.resetBlock_maskEn : (s.resetBlock).maskEn = false := rfl
@[simp] theorem State.resetBlock_mask : (s.resetBlock).mask = 0 := rfl
@[simp] theorem State.resetBlock_width : (s.resetBlock).width = 0 := rfl
@[simp] theorem State.resetBlock_height : (s.resetBlock).height = 0 := rfl
@[simp] theorem State.resetBlock_state : (s.resetBlock).state = .idle := rfl
@[simp] theorem State.resetBlock_result : (s.resetBlock).result = .none := rfl
@[simp] theorem State.resetBlock_x : (s.resetBlock).x = 0 := rfl
@[simp] theorem State.resetBlock_y : (s.resetBlock).y = 0 := rfl
@[simp] theorem State.resetBlock_cause : (s.resetBlock).cause = .none := rfl
@[simp] theorem State.resetBlock_diag : (s.resetBlock).diag = 0 := rfl
@[simp] theorem State.resetBlock_diagop : (s.resetBlock).diagop = 0 := rfl
@[simp] theorem State.resetBlock_obSize : (s.resetBlock).obSize = s.obSize := rfl
@[simp] theorem State.resetBlock_ob : (s.resetBlock).ob = s.ob := rfl
@[simp] theorem State.resetBlock_inputs : (s.resetBlock).inputs = s.inputs := rfl

end Sys2Proof.Machine
end

