-- ==== Sys2Proof/Laws/Ops.lean ====
section
/-! SUPPORT. One lemma for each shared operation of the machine, saying once everything it can do. -/

namespace Sys2Proof.Machine

variable {s t : State}

/-- A part of a step that answers a next state hands it to the rest. -/
@[simp] theorem Answer.andThen_next (s : State) (f : State → Answer) :
    Answer.andThen (.next s) f = f s := rfl

@[simp] theorem Answer.andThen_fault (r : Fault) (f : State → Answer) :
    Answer.andThen (.fault r) f = .fault r := rfl

/-- Two parts that answer a next state: the first answered one, and the second did on it. -/
theorem Answer.andThen_eq_next {o : Answer} {f : State → Answer} :
    Answer.andThen o f = .next t ↔ ∃ u, o = .next u ∧ f u = .next t := by
  cases o <;> simp [Answer.andThen]

/-- A store answers a next state exactly below the size of OB, and writes that one byte. -/
theorem memWrite_eq_next {a : Nat} {v : Byte} :
    memWrite a v s = .next t ↔ (∃ n, s.obSize = some n ∧ a < n) ∧ t = s.writeOb a v := by
  unfold memWrite
  cases h : s.obSize with
  | none => simp
  | some n =>
    by_cases ha : a < n
    · simp only [if_true, Host.Outcome.next.injEq, Option.some.injEq, exists_eq_left', ha, true_and]
      exact eq_comm
    · simp [ha]

/-- `advance()` answers a next state exactly under its precondition. -/
theorem advance_eq_next : advance s = .next t ↔ (s.x < s.width ∧ s.y < s.height) ∧ t = s.advanced := by
  unfold advance
  split
  · rename_i h
    simp only [Host.Outcome.next.injEq, h, and_self, true_and]
    exact eq_comm
  · rename_i h
    simp [h]

/-- The three things `advance()` does: the next column, the next row, or the end of the image. -/
theorem State.advanced_cases (s : State) :
    (s.x.toNat + 1 < s.width.toNat ∧ s.advanced = s.setPosition (s.x + 1) s.y) ∨
    (¬ s.x.toNat + 1 < s.width.toNat ∧ s.y.toNat + 1 ≠ s.height.toNat ∧
      s.advanced = s.setPosition 0 (s.y + 1)) ∨
    (¬ s.x.toNat + 1 < s.width.toNat ∧ s.y.toNat + 1 = s.height.toNat ∧
      s.advanced = ((s.setPosition 0 (s.y + 1)).setRunState .idle).setResult .done) := by
  unfold State.advanced
  split
  · exact .inl ⟨‹_›, rfl⟩
  · split
    · exact .inr (.inr ⟨‹_›, ‹_›, rfl⟩)
    · exact .inr (.inl ⟨‹_›, ‹_›, rfl⟩)

/-- `advance()` touches the position, STATE and RESULT alone. -/
theorem State.advanced_frame (s : State) :
    s.advanced.acc = s.acc ∧ s.advanced.mode = s.mode ∧ s.advanced.maskEn = s.maskEn ∧
    s.advanced.mask = s.mask ∧ s.advanced.width = s.width ∧ s.advanced.height = s.height ∧
    s.advanced.cause = s.cause ∧ s.advanced.diag = s.diag ∧ s.advanced.diagop = s.diagop ∧
    s.advanced.obSize = s.obSize ∧ s.advanced.ob = s.ob ∧ s.advanced.inputs = s.inputs := by
  rcases s.advanced_cases with ⟨-, h⟩ | ⟨-, -, h⟩ | ⟨-, -, h⟩ <;> simp [h]

/-- The table of 43 R140 for one operation: ignored, performed, or PROTOCOL. -/
theorem performIn_cases (allowed : RunState) (i : Instr) (s : State) (o : Answer) :
    (s.state = .fault ∧ performIn allowed i s o = .next s) ∨
    (s.state ≠ .fault ∧ s.state = allowed ∧ performIn allowed i s o = o) ∨
    (s.state ≠ .fault ∧ s.state ≠ allowed ∧
      performIn allowed i s o = .next (s.enterFault .protocol i.opcode i.arg)) := by
  unfold performIn raiseFault
  by_cases h : s.state = .fault
  · exact .inl ⟨h, by simp [h]⟩
  · by_cases h' : s.state = allowed
    · exact .inr (.inl ⟨h, h', by rw [if_neg h, if_pos h']⟩)
    · exact .inr (.inr ⟨h, h', by rw [if_neg h, if_neg h']⟩)

/-- In FAULT an operation is ignored (43 R150). -/
theorem performIn_fault {allowed : RunState} {i : Instr} {o : Answer} (h : s.state = .fault) :
    performIn allowed i s o = .next s := by
  simp [performIn, h]

/-- In the state it is allowed in, an operation is performed (43 R140). -/
theorem performIn_allowed {allowed : RunState} {i : Instr} {o : Answer} (h : s.state = allowed)
    (ha : allowed ≠ .fault) : performIn allowed i s o = o := by
  simp [performIn, h, ha]

/-- In the other state it raises PROTOCOL (43 R152). -/
theorem performIn_wrong {allowed : RunState} {i : Instr} {o : Answer} (h : s.state ≠ allowed)
    (hf : s.state ≠ .fault) :
    performIn allowed i s o = .next (s.enterFault .protocol i.opcode i.arg) := by
  simp [performIn, raiseFault, h, hf]

/-- An illegal word: ignored in FAULT, else the fault ILLEGAL (43 R150, R151). -/
theorem illegalWord_cases (w : Command) (s : State) :
    (s.state = .fault ∧ illegalWord w s = s) ∨
    (s.state ≠ .fault ∧ illegalWord w s = s.enterFault .illegal (opField w) (argField w)) := by
  unfold illegalWord
  by_cases h : s.state = .fault
  · exact .inl ⟨h, by simp [h]⟩
  · exact .inr ⟨h, by simp [h]⟩

/-- The four things a step does with the host's oldest input (00 R12). -/
theorem step_cases (s : State) :
    (s.inputs = [] ∧ step s = .next s) ∨
    (∃ rest, s.inputs = .reset :: rest ∧ step s = .next (s.setInputs rest).resetBlock) ∨
    (∃ w i rest, s.inputs = .command w :: rest ∧ decode w = .op i ∧
      step s = exec i (s.setInputs rest)) ∨
    (∃ w why rest, s.inputs = .command w :: rest ∧ decode w = .illegal why ∧
      step s = .next (illegalWord w (s.setInputs rest))) := by
  unfold step State.takeInput
  rcases h : s.inputs with _ | ⟨_ | _, rest⟩
  · exact .inl ⟨rfl, rfl⟩
  · rename_i w
    rcases hd : decode w with i | why
    · exact .inr (.inr (.inl ⟨w, i, rest, rfl, hd, by simp [hd]⟩))
    · exact .inr (.inr (.inr ⟨w, why, rest, rfl, hd, by simp [hd]⟩))
  · exact .inr (.inl ⟨rest, rfl, rfl⟩)

end Sys2Proof.Machine
end

