-- ==== Sys2Proof/Laws/Exec.lean ====
section
/-! SUPPORT. What each meaning can do, once: the control operations through `performIn`, and the ways a PIX
answers a next state. -/

namespace Sys2Proof.Machine

variable {s t : State}

/-- In FAULT every operation is ignored (43 R150). -/
theorem exec_of_fault (i : Instr) (h : s.state = .fault) : exec i s = .next s := by
  cases i <;> exact performIn_fault h

theorem exec_cfg_idle (mono maskEn : Bool) (mask : Byte) (h : s.state = .idle) :
    exec (.cfg mono maskEn mask) s = .next (s.configure (Mode.ofMono mono) maskEn mask) :=
  performIn_allowed h (by decide)

theorem exec_setw_idle (v : Dim) (h : s.state = .idle) : exec (.setw v) s = .next (s.setWidth v) :=
  performIn_allowed h (by decide)

theorem exec_seth_idle (v : Dim) (h : s.state = .idle) : exec (.seth v) s = .next (s.setHeight v) :=
  performIn_allowed h (by decide)

theorem exec_begin_idle (h : s.state = .idle) : exec .begin s = .next s.beginImage :=
  performIn_allowed h (by decide)

theorem exec_pix_rgb332 (p : Arg) (h : s.state = .active) (hm : s.mode = .rgb332) :
    exec (.pix p) s = pixRgb332 p s :=
  (performIn_allowed h (by decide)).trans (by rw [hm])

theorem exec_pix_mono (p : Arg) (h : s.state = .active) (hm : s.mode = .mono) :
    exec (.pix p) s = pixMono p s :=
  (performIn_allowed h (by decide)).trans (by rw [hm])

/-- `widthSkips` is the width test of 43 R146. -/
theorem State.widthSkips_iff (s : State) :
    s.widthSkips = true ↔ s.mode = .mono ∧ s.width.toNat % 8 ≠ 0 := by
  simp [State.widthSkips]

/-- The three outcomes of BEGIN in IDLE (43 R144 to R146). -/
theorem State.beginImage_cases (s : State) :
    (s.mode = .mono ∧ s.width.toNat % 8 ≠ 0 ∧ s.beginImage = s.clearPosition.setResult .skipped) ∨
    (¬ (s.mode = .mono ∧ s.width.toNat % 8 ≠ 0) ∧ (s.width = 0 ∨ s.height = 0) ∧
      s.beginImage = (s.clearPosition.newBuffer s.nbytes).setResult .done) ∨
    (¬ (s.mode = .mono ∧ s.width.toNat % 8 ≠ 0) ∧ s.width ≠ 0 ∧ s.height ≠ 0 ∧
      s.beginImage =
        ((s.clearPosition.newBuffer s.nbytes).setResult .none).setRunState .active) := by
  unfold State.beginImage
  by_cases h : s.widthSkips = true
  · exact .inl ⟨(s.widthSkips_iff.1 h).1, (s.widthSkips_iff.1 h).2, by rw [if_pos h]⟩
  · have h' := mt s.widthSkips_iff.2 h
    rw [if_neg h]
    by_cases hz : s.width = 0#32 ∨ s.height = 0#32
    · exact .inr (.inl ⟨h', hz, by rw [if_pos hz]⟩)
    · exact .inr (.inr ⟨h', fun e => hz (.inl e), fun e => hz (.inr e), by rw [if_neg hz]⟩)

/-- The two ways `pixRgb332` answers a next state (41 R110): a fault, or a store and an advance. -/
theorem pixRgb332_eq_next {p : Arg} : pixRgb332 p s = .next t ↔
    (∃ c, select332 p s.maskEn s.mask = .cause c ∧ t = s.enterFault c 0x05 p) ∨
    (∃ b, select332 p s.maskEn s.mask = .byte b ∧ (∃ n, s.obSize = some n ∧ s.oaddr < n) ∧
      (s.x < s.width ∧ s.y < s.height) ∧ t = (s.writeOb s.oaddr b).advanced) := by
  unfold pixRgb332
  rcases select332 p s.maskEn s.mask with b | c
  · simp only [Answer.andThen_eq_next, memWrite_eq_next, advance_eq_next]
    constructor
    · rintro ⟨u, ⟨hn, rfl⟩, hxy, rfl⟩
      exact .inr ⟨b, rfl, hn, hxy, rfl⟩
    · rintro (⟨c, h, -⟩ | ⟨b', h, hn, hxy, rfl⟩)
      · cases h
      · cases h
        exact ⟨_, ⟨hn, rfl⟩, hxy, rfl⟩
  · simp only [raiseFault, Host.Outcome.next.injEq]
    constructor
    · rintro rfl
      exact .inl ⟨c, rfl, rfl⟩
    · rintro (⟨c', h, rfl⟩ | ⟨b, h, -⟩)
      · cases h
        rfl
      · cases h

/-- The three ways `pixMono` answers a next state (42 R125): a fault; a bit gathered; the eighth bit, with a
store. -/
theorem pixMono_eq_next {p : Arg} : pixMono p s = .next t ↔
    (monoBit p = .invalid ∧ t = s.enterFault .invalidMonoPixel 0x05 p) ∨
    (∃ v, monoBit p = .bit v ∧ s.x.toNat % 8 ≠ 7 ∧ (s.x < s.width ∧ s.y < s.height) ∧
      t = (s.setAcc (s.acc ||| laneBit v (s.x.toNat % 8))).advanced) ∨
    (∃ v, monoBit p = .bit v ∧ s.x.toNat % 8 = 7 ∧ (∃ n, s.obSize = some n ∧ s.oaddr < n) ∧
      (s.x < s.width ∧ s.y < s.height) ∧
      t = ((s.writeOb s.oaddr (s.acc ||| laneBit v 7)).setAcc 0).advanced) := by
  unfold pixMono
  rcases monoBit p with v | _
  · by_cases h7 : s.x.toNat % 8 = 7
    · simp only [h7, if_true, Answer.andThen_eq_next, memWrite_eq_next, advance_eq_next]
      constructor
      · rintro ⟨u, ⟨hn, rfl⟩, hxy, rfl⟩
        exact .inr (.inr ⟨v, rfl, trivial, hn, hxy, rfl⟩)
      · rintro (⟨h, -⟩ | ⟨v', -, h, -⟩ | ⟨v', h, -, hn, hxy, rfl⟩)
        · cases h
        · exact absurd rfl h
        · cases h
          exact ⟨_, ⟨hn, rfl⟩, hxy, rfl⟩
    · simp only [h7, if_false, advance_eq_next]
      constructor
      · rintro ⟨hxy, rfl⟩
        exact .inr (.inl ⟨v, rfl, h7, hxy, rfl⟩)
      · rintro (⟨h, -⟩ | ⟨v', h, -, hxy, rfl⟩ | ⟨v', -, h, -⟩)
        · cases h
        · cases h
          exact ⟨hxy, rfl⟩
        · exact absurd h id
  · simp only [raiseFault, Host.Outcome.next.injEq]
    constructor
    · rintro rfl
      exact .inl ⟨trivial, rfl⟩
    · rintro (⟨-, rfl⟩ | ⟨v, h, -⟩ | ⟨v, h, -⟩)
      · rfl
      · cases h
      · cases h

/-- The cause the mux gives is never "no fault" (40 R101). -/
theorem select332_cause_ne_none {p : Arg} {maskEn : Bool} {mask : Byte} {c : Cause}
    (h : select332 p maskEn mask = .cause c) : c ≠ .none := by
  unfold select332 at h
  split at h
  · cases h
  · split at h
    · cases h
    · cases h
      decide
  · rename_i r _
    cases h
    cases r <;> decide

/-- The ways a PIX answers a next state: ignored in FAULT, PROTOCOL in IDLE, a pixel cause, a store with an
advance, or a bit gathered with an advance. -/
theorem exec_pix_cases {p : Arg} (h : exec (.pix p) s = .next t) :
    (s.state = .fault ∧ t = s) ∨
    (s.state = .idle ∧ t = s.enterFault .protocol 0x05 p) ∨
    (s.state = .active ∧ storeOf p s = none ∧ ∃ c, c ≠ .none ∧ t = s.enterFault c 0x05 p) ∨
    (s.state = .active ∧ (s.x < s.width ∧ s.y < s.height) ∧ (∃ n, s.obSize = some n ∧ s.oaddr < n) ∧
      ∃ v acc', storeOf p s = some (s.oaddr, v) ∧ (s.mode = .rgb332 ∧ acc' = s.acc ∨
        s.mode = .mono ∧ s.x.toNat % 8 = 7 ∧ acc' = 0) ∧
      t = ((s.writeOb s.oaddr v).setAcc acc').advanced) ∨
    (s.state = .active ∧ (s.x < s.width ∧ s.y < s.height) ∧ s.mode = .mono ∧ s.x.toNat % 8 ≠ 7 ∧
      storeOf p s = none ∧ ∃ v, monoBit p = .bit v ∧
      t = (s.setAcc (s.acc ||| laneBit v (s.x.toNat % 8))).advanced) := by
  cases hs : s.state with
  | fault =>
    rw [exec_of_fault _ hs] at h
    cases h
    exact .inl ⟨rfl, rfl⟩
  | idle =>
    have e : exec (.pix p) s = .next (s.enterFault .protocol 0x05 p) :=
      performIn_wrong (by simp [hs]) (by simp [hs])
    rw [e] at h
    cases h
    exact .inr (.inl ⟨rfl, rfl⟩)
  | active =>
    refine .inr (.inr ?_)
    cases hm : s.mode with
    | rgb332 =>
      rw [exec_pix_rgb332 p hs hm, pixRgb332_eq_next] at h
      rcases h with ⟨c, hc, rfl⟩ | ⟨b, hb, hn, hxy, rfl⟩
      · exact .inl ⟨rfl, by simp [storeOf, hs, hm, hc], c, select332_cause_ne_none hc, rfl⟩
      · exact .inr (.inl ⟨rfl, hxy, hn, b, s.acc, by simp [storeOf, hs, hm, hb], .inl ⟨rfl, rfl⟩, rfl⟩)
    | mono =>
      rw [exec_pix_mono p hs hm, pixMono_eq_next] at h
      rcases h with ⟨hv, rfl⟩ | ⟨v, hv, h7, hxy, rfl⟩ | ⟨v, hv, h7, hn, hxy, rfl⟩
      · exact .inl ⟨rfl, by simp [storeOf, hs, hm, hv], _, by decide, rfl⟩
      · exact .inr (.inr ⟨rfl, hxy, rfl, h7, by simp [storeOf, hs, hm, hv, h7], v, hv, rfl⟩)
      · exact .inr (.inl ⟨rfl, hxy, hn, _, 0, by simp [storeOf, hs, hm, hv, h7], .inr ⟨rfl, h7, rfl⟩, rfl⟩)

end Sys2Proof.Machine
end

