-- ==== Sys2Proof/Laws/PerInstr.lean ====
section
/-! SUPPORT. The family `OwnRow`, one lemma per operation: the encoder puts each operation's opcode byte and
operand where spec/30_encoding.md rule R70 says, and the word is selected by that operation's own row of the
opcode map (rule R72). -/

namespace Sys2Proof.Laws

/-- The word of `i` has `i`'s fields, its own row of the opcode map selects it, and it is well formed. -/
def OwnRow.Statement (i : Instr) : Prop :=
  opField (encode i) = i.opcode ∧ argField (encode i) = i.arg ∧
  i.row.selects (encode i) = true ∧ Command.wellFormed (encode i) = true

/-- What is left to show of an operation: its two fields under its own row's mask. -/
theorem OwnRow.of_fields {i : Instr} {r : OpRow} (hr : i.row = r) (hm : r ∈ opcodeMap)
    (ho : i.opcode &&& opField r.mask = opField r.pattern)
    (ha : i.arg &&& argField r.mask = argField r.pattern) : OwnRow.Statement i := by
  have h : r.selects (encode i) = true := (r.selects_fields _).2 (by simpa [encode] using ⟨ho, ha⟩)
  exact ⟨by simp [encode], by simp [encode], hr ▸ h, List.any_eq_true.2 ⟨r, hm, h⟩⟩

/-- An operand field with no fixed bit is selected whatever it holds. -/
theorem and_free_arg (arg : Arg) : arg &&& 0#32 = 0#32 := BitVec.and_zero

/-- The bits CFG's row fixes in the operand: 31 to 10 (30 R72). -/
theorem cfg_mask_bits : ∀ j < 32, (argField OpRow.cfg.mask).getLsbD j = decide (10 ≤ j) := by decide

/-- Bits 31 to 10 of CFG's operand are 0 (30 R71). -/
theorem cfg_arg_high (mono maskEn : Bool) (mask : Byte) {j : Nat} (h : 10 ≤ j) :
    (Instr.arg (.cfg mono maskEn mask)).getLsbD j = false := by
  have h9 : j - 9 ≠ 0 := by omega
  have h8 : j - 8 ≠ 0 := by omega
  simp [Instr.arg, BitVec.getLsbD_ofBool, h9, h8, BitVec.getLsbD_of_ge mask j (by omega)]

theorem OwnRow.cfg (mono maskEn : Bool) (mask : Byte) : OwnRow.Statement (.cfg mono maskEn mask) := by
  refine OwnRow.of_fields (r := .cfg) rfl (by decide) (by show (0x01 : Byte) &&& _ = _; decide) ?_
  rw [show argField OpRow.cfg.pattern = 0#32 by decide]
  apply BitVec.eq_of_getLsbD_eq
  intro j hj
  rw [BitVec.getLsbD_and, cfg_mask_bits j hj]
  by_cases h : 10 ≤ j
  · simp [cfg_arg_high mono maskEn mask h]
  · simp [h]

theorem OwnRow.setw (width : Dim) : OwnRow.Statement (.setw width) :=
  OwnRow.of_fields (r := .setw) rfl (by decide) (by show (0x02 : Byte) &&& _ = _; decide) (and_free_arg width)

theorem OwnRow.seth (height : Dim) : OwnRow.Statement (.seth height) :=
  OwnRow.of_fields (r := .seth) rfl (by decide) (by show (0x03 : Byte) &&& _ = _; decide) (and_free_arg height)

theorem OwnRow.begin : OwnRow.Statement .begin :=
  OwnRow.of_fields (r := .begin) rfl (by decide) (by decide) (by decide)

theorem OwnRow.pix (p : Arg) : OwnRow.Statement (.pix p) :=
  OwnRow.of_fields (r := .pix) rfl (by decide) (by show (0x05 : Byte) &&& _ = _; decide) (and_free_arg p)

end Sys2Proof.Laws
end

