-- ==== Sys2Proof/Laws/Run.lean ====
section
/-! SUPPORT. What proofs about whole images lean on: one step of a run, `advance()` in ACTIVE as one record, that
OADDR lies in OB, and which bits a gathered pixel touches. -/

namespace Sys2Proof.Machine

variable {s t : State}

/-- A run of one more step is the run from the state after the step. -/
theorem run_succ {k : Nat} (h : step s = .next t) : core.run (k + 1) s = core.run k t := by
  have gen : ∀ (M : Host.Core) (s t : M.State), M.step s = .next t → M.run (k + 1) s = M.run k t :=
    fun M s t h => by simp only [Host.Core.run, h]
  exact gen core s t h

/-- A run of no step stays. -/
theorem run_zero : core.run 0 s = .next s := rfl

/-- What `advance()` does in ACTIVE, as one record (43 R148, R149). -/
theorem State.advanced_of_active (h : s.state = .active) : s.advanced = { s with
    x := if s.x.toNat + 1 < s.width.toNat then s.x + 1 else 0
    y := if s.x.toNat + 1 < s.width.toNat then s.y else s.y + 1
    state := if s.x.toNat + 1 < s.width.toNat ∨ s.y.toNat + 1 ≠ s.height.toNat then .active else .idle
    result :=
      if s.x.toNat + 1 < s.width.toNat ∨ s.y.toNat + 1 ≠ s.height.toNat then s.result else .done } := by
  rcases s.advanced_cases with ⟨h1, e⟩ | ⟨h1, h2, e⟩ | ⟨h1, h2, e⟩
  · rw [e]; simp only [h1, if_true, true_or]; rw [← h]; rfl
  · rw [e]; simp only [h1, h2, if_true, if_false, false_or, ne_eq, not_false_eq_true]; rw [← h]; rfl
  · rw [e]; simp only [h1, h2, if_false, false_or, ne_eq, not_true_eq_false]; rfl

/-- While an image is in progress OADDR lies in OB (10 R37 (c), 20 R52). -/
theorem Inv.oaddr_lt_nbytes (hi : Inv s) (h : s.state = .active) : s.oaddr < s.nbytes := by
  have hx := hi.active_x_lt h
  have hy := hi.active_y_lt h
  rw [BitVec.lt_def] at hx hy
  have rows : ∀ q c, c < q → s.y.toNat * q + c < q * s.height.toNat := fun q c hc =>
    calc _ < (s.y.toNat + 1) * q := by rw [Nat.add_mul]; omega
      _ ≤ _ := by rw [Nat.mul_comm]; exact Nat.mul_le_mul_left _ hy
  have h8 := hi.mono_width h
  unfold State.oaddr State.nbytes
  cases hm : s.mode
  · exact rows _ _ hx
  · have := h8 hm
    exact rows _ _ (by omega)

/-- A pixel at column `k` of its run touches no bit below `7 - k` (42 R127). -/
theorem laneBit_low (v : Bool) : ∀ k < 8, ∀ j < 7 - k, (laneBit v k).getLsbD j = false := by
  cases v <;> decide

/-- A pixel at column `k` of its run touches bit `7 - k` alone (42 R127). -/
theorem laneBit_other (v : Bool) {k j : Nat} (hk : k < 8) (hj : j ≠ 7 - k) :
    (laneBit v k).getLsbD j = false := by
  have small : ∀ v, ∀ k < 8, ∀ j < 8, j ≠ 7 - k → (laneBit v k).getLsbD j = false := by decide
  by_cases h : j < 8
  · exact small v k hk j h hj
  · exact BitVec.getLsbD_of_ge _ _ (by omega)

end Sys2Proof.Machine
end

