-- ==== Sys2Proof/Tests/Slice0.lean ====
section
/-! SUPPORT. Tests of the model's own: words written out from spec/30_encoding.md, one-step vectors of
spec/95_test_vectors.md, and for every statement with hypotheses a concrete case that meets them. -/

namespace Sys2Proof.Tests

open Sys2Proof.Machine

/-! ### Small states and observations -/

/-- The state an answer leaves, if it leaves one. -/
def after (o : Host.Outcome State Fault Refusal) : Option State :=
  match o with
  | .next s => some s
  | .fault _ => none
  | .refused _ => none

/-- IDLE with a configuration and dimensions. -/
def idle (m : Mode) (w h : Dim) : State := { State.reset with mode := m, width := w, height := h }

/-- An RGB332 image in progress, at a position. -/
def rgbAt (w h x y : Dim) : State :=
  { idle .rgb332 w h with x := x, y := y, state := .active, obSize := some (w.toNat * h.toNat) }

/-- A MONO image in progress, at a position with bits gathered. -/
def monoAt (w h x y : Dim) (acc : Byte) : State :=
  { idle .mono w h with
    x := x, y := y, acc := acc, state := .active, obSize := some (w.toNat / 8 * h.toNat) }

/-- The state after the fault of 95 V9, first row. -/
def faulted : State := (rgbAt 2 1 1 0).enterFault .transparentNoMask 0x05 0x12345600

/-- A state with one input waiting. -/
def waiting (s : State) (e : Input) : State := { s with inputs := [e] }

/-! ### Well-formed words: each check refuses an ill-formed word (30 R79; 95 V7) -/

theorem test_wellFormed_words :
    [0x01000003FF, 0x02FFFFFFFF, 0x0300000001, 0x0400000000, 0x0500000000].map Command.wellFormed
      = [true, true, true, true, true] := by decide

theorem test_illFormed_cfg_bit10 : Command.wellFormed 0x0100000400 = false := by decide
theorem test_illFormed_cfg_bit31 : Command.wellFormed 0x0180000000 = false := by decide
theorem test_illFormed_begin_operand : Command.wellFormed 0x0400000001 = false := by decide
theorem test_illFormed_opcode_0 : Command.wellFormed 0x00240055FF = false := by decide
theorem test_illFormed_opcode_6 : Command.wellFormed 0x0600000000 = false := by decide
theorem test_illFormed_opcode_255 : Command.wellFormed 0xFFFFFFFFFF = false := by decide

/-! ### Decoding: a word of each row written out bit by bit from the patterns of 30 R72 -/

theorem test_decode_cfg :
    decode 0b00000001_0000000000000000000000_0_1_11100011 = .op (.cfg false true 0xE3) := by decide
theorem test_decode_cfg_mono_is_bit_9 :
    decode 0b00000001_0000000000000000000000_1_0_00000000 = .op (.cfg true false 0x00) := by decide
theorem test_decode_setw :
    decode 0b00000010_10000000000000000000000000001000 = .op (.setw 0x80000008) := by decide
theorem test_decode_seth :
    decode 0b00000011_00000000000000000000000000000001 = .op (.seth 1) := by decide
theorem test_decode_begin :
    decode 0b00000100_00000000000000000000000000000000 = .op .begin := by decide
theorem test_decode_pix :
    decode 0b00000101_00100100_00000000_01010101_11111111 = .op (.pix 0x240055FF) := by decide
theorem test_decode_rejects_by_name :
    [0x0100000400, 0x0480000000, 0x81240055FF].map decode =
      [.illegal .cfgZeroField, .illegal .beginOperand, .illegal (.unknownOpcode 0x81)] := by decide

/-- The encoder against the words of 95 V7 and program P1. -/
theorem test_encode :
    [Instr.cfg false true 0xE3, .cfg true false 0, .setw 8, .seth 1, .begin, .pix 0x240055FF].map encode =
      [0x01000001E3, 0x0100000200, 0x0200000008, 0x0300000001, 0x0400000000, 0x05240055FF] := by decide

theorem test_decodeTableWord :
    decodeTableWord 40 0x0500000000 = some (.pix 0) ∧ decodeTableWord 40 0x0100000400 = none ∧
    decodeTableWord 40 0x10500000000 = none := by decide

/-- The first step after reset runs the word that `withFetchWord` places. -/
theorem test_step_runs_withFetchWord :
    (after (step (State.reset.withFetchWord 40 0x0200000008))).map (·.width) = some 8 := by decide

/-! ### Assembler lines (30 R82 to R84) -/

theorem test_asm_words :
    [AsmLine.cfgRgb332 none, .cfgRgb332 (some 0xE3), .cfgMono none, .setw 8, .seth 1, .begin,
      .pixChannels ⟨0x24, 0x00, 0x55, 0xFF⟩, .pixWord 0x240055FF, .word 0x0600000005].map AsmLine.words =
      [[0x0100000000], [0x01000001E3], [0x0100000200], [0x0200000008], [0x0300000001], [0x0400000000],
       [0x05240055FF], [0x05240055FF], [0x0600000005]] := by decide

theorem test_asm_image : (AsmLine.image 2 1).words = [0x0200000002, 0x0300000001, 0x0400000000] := by decide

/-- 95 S12; a literal that is malformed (43 R158) has no value. -/
theorem test_maskLiteral :
    maskLiteral ['0', 'b', '1', '1', '1', '0', '_', '0', '0', '1', '1'] = some 0xE3 ∧
    maskLiteral ['0', 'b', '1', '1', '1', '0', '0', '0', '1'] = none ∧
    maskLiteral ['0', 'x', '1', '1', '1', '0', '0', '0', '1', '1'] = none ∧
    maskLiteral ['0', 'b', '1', '1', '1', '0', '0', '0', '1', '2'] = none := by decide

/-! ### One step of each operation (95 V5, V6, V8) -/

/-- V8, first row. -/
theorem test_cfg : (after (exec (.cfg true true 0xE3) State.reset)).map (fun s => (s.mode, s.maskEn, s.mask)) =
    some (.mono, true, 0xE3) := by decide
/-- V8: CFG in ACTIVE. -/
theorem test_cfg_active : (after (exec (.cfg true false 0) (rgbAt 1 1 0 0))).map
    (fun s => (s.state, s.cause, s.diag, s.diagop, s.mode)) =
    some (.fault, .protocol, 0x00000200, 0x01, .rgb332) := by decide
/-- V8, third row. -/
theorem test_setw : (after (exec (.setw 0xFFFFFFFF) State.reset)).map (fun s => (s.width, s.height)) =
    some (4294967295, 0) := by decide
/-- V8: SETW in ACTIVE. -/
theorem test_setw_active : (after (exec (.setw 2) (rgbAt 1 1 0 0))).map
    (fun s => (s.state, s.cause.code, s.diag, s.diagop, s.width)) = some (.fault, 6, 2, 0x02, 1) := by decide
/-- V8, third row. -/
theorem test_seth : (after (exec (.seth 7) State.reset)).map (fun s => (s.width, s.height)) = some (0, 7) := by
  decide
/-- 60 R178: nothing happens in FAULT. -/
theorem test_seth_fault : after (exec (.seth 7) faulted) = some faulted := by decide
/-- V8: `CFG MONO`; `IMAGE 4, 0` is SKIPPED, `IMAGE 0, 5` is DONE with an empty OB. -/
theorem test_begin_ends_at_once :
    (after (exec .begin (idle .mono 4 0))).map (fun s => (s.result, s.state, s.obBytes)) =
      some (.skipped, .idle, none) ∧
    (after (exec .begin (idle .rgb332 0 5))).map (fun s => (s.result, s.state, s.obBytes)) =
      some (.done, .idle, some []) := by decide
/-- V8: `CFG MONO`; `IMAGE 16, 2`. -/
theorem test_begin_starts : (after (exec .begin (idle .mono 16 2))).map (fun s => (s.state, s.obBytes)) =
    some (.active, some [0, 0, 0, 0]) := by decide
/-- V5, first row, at `(2, 1)` of a 3x3 image: the byte goes to index 5 and the row ends. -/
theorem test_pix_rgb332 : (after (exec (.pix 0x240055FF) (rgbAt 3 3 2 1))).map
    (fun s => (s.ob, s.x, s.y, s.state)) = some ([(5, 0x21)], 0, 2, .active) := by decide
/-- V6, last row. -/
theorem test_pix_mono : (after (exec (.pix 0xFFFFFFFF) (monoAt 16 3 15 1 0x54))).map
    (fun s => (s.ob, s.acc, s.x, s.y, s.state)) = some ([(3, 0x55)], 0, 0, 2, .active) := by decide

/-! ### Tables and whole-image functions (95 V3, S3, S4) -/

theorem test_lookup :
    [0xFF0000FF, 0x00FF00FF, 0x0000FFFF, 0x926DAAFF, 0x25005580, 0x000024FF, 0x12345600].map lookup =
      [.supported 0xE0, .supported 0x1C, .supported 0x03, .supported 0x8E, .unsupported .partialTransparency,
       .unsupported .unsupportedChannel, .transparent] := by decide

theorem test_encode332 :
    encode332 1 1 [0x00000000] true 0xE3 = .ok [0xE3] ∧
    encode332 2 1 [0xFFFFFFFF, 0x12345600] false 0 = .fatal .transparentNoMask 1 0x12345600 := by decide

theorem test_encodeMono :
    encodeMono 8 1 [0xFF, 0xFF, 0xFF, 0xFF, 0xFFFFFFFF, 0xFFFFFFFF, 0xFFFFFFFF, 0xFFFFFFFF] = .ok [0x0F] ∧
    encodeMono 2 2 [0xFF, 0xFFFFFFFF, 0xFF, 0xFFFFFFFF] = .skipped := by decide

/-- 60 R184 on the states of 95 V8. -/
theorem test_verdict :
    State.reset.verdict = .notStarted ∧ (rgbAt 2 1 1 0).verdict = .wants 1 0 ∧
    faulted.verdict = .fatal .transparentNoMask 0x12345600 1 0 ∧
    (after (exec .begin (idle .mono 4 0))).map State.verdict = some .skipped ∧
    (after (exec .begin (idle .rgb332 0 5))).map State.verdict = some (.done (some [])) := by decide

/-! ### Witnesses: a concrete case that meets the hypotheses of each statement, clause by clause -/

theorem witness_EncodeOfDecode : decode 0x05FFFFFFFF = .op (.pix 0xFFFFFFFF) := by decide

theorem witness_WordSelectsOneRow :
    OpRow.cfg ∈ opcodeMap ∧ (0x01000003FF : Command) &&& OpRow.cfg.mask = OpRow.cfg.pattern ∧
    OpRow.begin ∈ opcodeMap ∧ (0x0400000000 : Command) &&& OpRow.begin.mask = OpRow.begin.pattern ∧
    ∀ r ∈ opcodeMap, (0x0600000000 : Command) &&& r.mask ≠ r.pattern := by decide

/-- Each of the four illegal classes at its boundary, accepted in IDLE and in FAULT. -/
theorem witness_IllegalWordsFault :
    (waiting State.reset (.command 0x0600000005)).inputs = .command 0x0600000005 :: [] ∧
    decode 0x0600000005 = .illegal (.unknownOpcode 0x06) ∧ decode 0x00FFFFFFFF = .illegal (.unknownOpcode 0x00) ∧
    decode 0x0100000400 = .illegal .cfgZeroField ∧ decode 0x0400000001 = .illegal .beginOperand ∧
    State.reset.state ≠ .fault ∧ faulted.state = .fault := by decide

theorem witness_MaskLiteralStripsUnderscores :
    [true, true, true, false, false, false, true, true].length = 8 := by decide

theorem witness_StepRunsDecodedCommand :
    (waiting State.reset (.command 0x0200000008)).inputs = .command 0x0200000008 :: [] ∧
    decode 0x0200000008 = .op (.setw 8) := by decide

theorem witness_StepWithoutInput : State.reset.inputs = [] := by decide

theorem witness_ResetEventClearsRegisters : (waiting faulted .reset).inputs = .reset :: [] := by decide

/-- CFG, SETW and SETH: their IDLE and their ACTIVE clause; the IDLE one is `StatusCodesAsNumbered`'s as well. -/
theorem witness_CfgEffect_SetwEffect_SethEffect :
    (idle .mono 8 1).state = .idle ∧ (rgbAt 1 1 0 0).state = .active := by decide

/-- BEGIN in IDLE: skipped, zero area, started; and in ACTIVE. -/
theorem witness_BeginEffect :
    ((idle .mono 4 0).state = .idle ∧ (idle .mono 4 0).mode = .mono ∧ (idle .mono 4 0).width.toNat % 8 ≠ 0) ∧
    ((idle .mono 0 0).state = .idle ∧ (idle .mono 0 0).width.toNat % 8 = 0 ∧ (idle .mono 0 0).width = 0) ∧
    ((idle .rgb332 3 2).state = .idle ∧ (idle .rgb332 3 2).width ≠ 0 ∧ (idle .rgb332 3 2).height ≠ 0) ∧
    (monoAt 8 1 7 0 0xFE).state = .active := by decide

theorem witness_BeginZeroArea :
    ((idle .mono 4 0).state = .idle ∧ (idle .mono 4 0).height = 0) ∧
    ((idle .rgb332 0 5).state = .idle ∧ (idle .rgb332 0 5).width = 0) := by decide

theorem witness_BeginWidthSkip :
    ((idle .mono 12 3).state = .idle ∧ (idle .mono 12 3).mode = .mono ∧
      (idle .mono 12 3).width.extractLsb' 0 3 ≠ 0) ∧
    ((idle .rgb332 3 2).state = .idle ∧ (idle .rgb332 3 2).mode = .rgb332) := by decide

theorem witness_BeginZeroesBuffer :
    ((idle .mono 16 2).state = .idle ∧ ¬ ((idle .mono 16 2).mode = .mono ∧ (idle .mono 16 2).width.toNat % 8 ≠ 0)) ∧
    0 < (idle .mono 16 2).nbytes ∧ (idle .mono 16 2).nbytes ≤ 4 := by decide

theorem witness_ProtocolFault :
    (∃ p, Instr.pix 0x12345600 = .pix p) ∧ State.reset.state = .idle ∧
    (∀ p, Instr.begin ≠ .pix p) ∧ (rgbAt 1 1 0 0).state = .active :=
  ⟨⟨_, rfl⟩, by decide, fun _ => by simp, by decide⟩

theorem witness_FaultIgnoresCommands :
    faulted.state = .fault ∧ (waiting faulted (.command 0x0400000001)).inputs = .command 0x0400000001 :: [] := by
  decide

/-- Each arm of the mux; a pixel it turns down; a pixel it accepts in mid-row, at a row's end and at the image's. -/
theorem witness_Rgb332PixelStep :
    [0x240055FF, 0x12345600, 0x24005580, 0x250055FF].map lookup =
      [.supported 0x21, .transparent, .unsupported .partialTransparency, .unsupported .unsupportedChannel] ∧
    ((rgbAt 3 3 2 1).state = .active ∧ (rgbAt 3 3 2 1).mode = .rgb332 ∧
      select332 0x24005580 false 0 = .cause .partialTransparency) ∧
    [rgbAt 3 3 1 1, rgbAt 3 3 2 1, rgbAt 3 3 2 2].all (fun s =>
      select332 0x240055FF s.maskEn s.mask = .byte 0x21 ∧ s.x < s.width ∧ s.y < s.height ∧
      s.obSize = some 9 ∧ s.y.toNat * s.width.toNat + s.x.toNat < 9) := by decide

/-- The hypotheses of the three pixel faults of RGB332 mode, at the boundaries of alpha. -/
theorem witness_pixel_faults :
    (rgbAt 2 1 1 0).state = .active ∧ (rgbAt 2 1 1 0).mode = .rgb332 ∧ (rgbAt 2 1 1 0).maskEn = false ∧
    (0x12345600 : Arg).extractLsb' 0 8 = 0 ∧
    1 ≤ ((0x24005501 : Arg).extractLsb' 0 8).toNat ∧ ((0x240055FE : Arg).extractLsb' 0 8).toNat ≤ 254 ∧
    (monoAt 8 1 5 0 0xD0).state = .active ∧
    (0x250055FF : Arg).extractLsb' 0 8 = 255 ∧ quantR ((0x250055FF : Arg).extractLsb' 24 8) = none ∧
    quantG ((0x242555FF : Arg).extractLsb' 16 8) = none ∧ quantB ((0x240054FF : Arg).extractLsb' 8 8) = none := by
  decide

/-- The invariant holds of an RGB332 image in progress with a mask, at its last pixel. -/
theorem witness_inv_rgb332 : Inv { rgbAt 3 2 2 1 with maskEn := true, mask := 0xE3, ob := [(0, 0x21)] } := by
  constructor <;> decide

/-- The invariant holds of a MONO image in progress, at its last pixel with seven bits gathered. -/
theorem witness_inv_mono : Inv (monoAt 8 1 7 0 0xFE) := by
  constructor <;> decide

/-- The invariant holds in FAULT, with the bits of the incomplete run in ACC. -/
theorem witness_inv_fault : Inv ((monoAt 8 1 5 0 0xD0).enterFault .invalidMonoPixel 0x05 0xFF0000FF) := by
  constructor <;> decide

/-- With `witness_inv_rgb332`. -/
theorem witness_TransparentStoresMask :
    (rgbAt 3 2 2 1).state = .active ∧ (rgbAt 3 2 2 1).mode = .rgb332 ∧
    (0x12345600 : Arg).extractLsb' 0 8 = 0 := by decide

/-- With `witness_inv_rgb332`; the second pixel's code is the configured mask, 0xE3 (41 R114). -/
theorem witness_SupportedPixelStoresItsCode :
    (rgbAt 3 2 2 1).state = .active ∧ (rgbAt 3 2 2 1).mode = .rgb332 ∧
    [0x240055FF, 0xFF00FFFF].all (fun p : Arg => p.extractLsb' 0 8 = 255) ∧
    [0x240055FF, 0xFF00FFFF].map (fun p : Arg =>
      (quantR (p.extractLsb' 24 8), quantG (p.extractLsb' 16 8), quantB (p.extractLsb' 8 8))) =
      [(some 0b001, some 0b000, some 0b01), (some 0b111, some 0b000, some 0b11)] := by decide

theorem witness_MaskNeverRescues :
    (0x00000001 : Arg).extractLsb' 0 8 ≠ 0 ∧
    { rgbAt 2 1 0 0 with maskEn := true, mask := 0xE3 }.state = .active ∧
    { rgbAt 2 1 0 0 with maskEn := true, mask := 0xE3 }.mode = .rgb332 ∧
    { rgbAt 2 1 0 0 with maskEn := true, mask := 0xE3 }.maskEn = true := by decide

/-- An invalid pixel; a black and a white one in mid-byte; a white one on the eighth column, last of the image. -/
theorem witness_MonoPixelStep :
    (monoAt 16 3 6 0 0xA8).state = .active ∧ (monoAt 16 3 6 0 0xA8).mode = .mono ∧
    (0xFFFFFFFE : Arg) ≠ 0x000000FF ∧ (0xFFFFFFFE : Arg) ≠ 0xFFFFFFFF ∧
    (monoAt 16 3 6 0 0xA8).x < 16 ∧ (monoAt 16 3 6 0 0xA8).y < 3 ∧ (monoAt 16 3 6 0 0xA8).x.toNat % 8 ≠ 7 ∧
    (monoAt 16 3 15 2 0x54).state = .active ∧ (monoAt 16 3 15 2 0x54).x < 16 ∧
    (monoAt 16 3 15 2 0x54).y < 3 ∧ (monoAt 16 3 15 2 0x54).x.toNat % 8 = 7 ∧
    (monoAt 16 3 15 2 0x54).obSize = some 6 ∧ 2 * (16 / 8) + 15 / 8 < 6 := by decide

theorem witness_MonoIgnoresMask :
    (monoAt 8 1 7 0 0xFE).mode = .mono ∧ ∃ t, exec (.pix 0xFFFFFFFF) (monoAt 8 1 7 0 0xFE) = .next t :=
  ⟨rfl, _, rfl⟩

/-- For the statements about any PIX in RGB332 mode that answers a next state: its reads, its frame, its store
port. -/
theorem witness_Rgb332IgnoresAcc :
    (rgbAt 3 3 2 1).mode = .rgb332 ∧ ∃ t, exec (.pix 0x240055FF) (rgbAt 3 3 2 1) = .next t := ⟨rfl, _, rfl⟩

/-- No OB; an OB too short; a position outside the image, with a store and with a bit gathered. -/
theorem witness_PixOutsideImageStops :
    { rgbAt 1 1 0 0 with obSize := none }.state = .active ∧
    storeOf 0x240055FF { rgbAt 1 1 0 0 with obSize := none } = some (0, 0x21) ∧
    { rgbAt 1 1 0 0 with obSize := none }.obSize = none ∧
    storeOf 0x240055FF { rgbAt 2 1 1 0 with obSize := some 1 } = some (1, 0x21) ∧ 1 ≤ 1 ∧
    storeOf 0x240055FF { rgbAt 1 1 1 0 with obSize := some 2 } = some (1, 0x21) ∧ 1 < 2 ∧
    ¬ ({ rgbAt 1 1 1 0 with obSize := some 2 }.x < { rgbAt 1 1 1 0 with obSize := some 2 }.width) ∧
    (monoAt 8 1 8 0 0).state = .active ∧ (monoAt 8 1 8 0 0).mode = .mono ∧ monoBit 0xFFFFFFFF ≠ .invalid ∧
    (monoAt 8 1 8 0 0).x.toNat % 8 ≠ 7 ∧ ¬ ((monoAt 8 1 8 0 0).x < (monoAt 8 1 8 0 0).width) := by decide

/-- With `witness_inv_rgb332` and `witness_inv_mono`. -/
theorem witness_MemWriteStoresOneByte :
    Memory.wf [(0, 0x21#8), (2, 0xE3#8)] ∧ (rgbAt 3 2 2 1).obSize = some 6 ∧ 5 < 6 ∧
    storeOf 0xFFFFFFFF (monoAt 8 1 7 0 0xFE) = some (0, 0xFF) := by decide

/-- A PIX that stores and one that does not. -/
theorem witness_StorePortShowsTheStore :
    (∃ t, exec (.pix 0xFFFFFFFF) (monoAt 8 1 7 0 0xFE) = .next t) ∧
    storePort 0xFFFFFFFF (monoAt 8 1 7 0 0xFE) = some (0, 0xFF) ∧
    (∃ t, exec (.pix 0xFFFFFFFF) (monoAt 8 1 6 0 0xFC) = .next t) ∧
    storePort 0xFFFFFFFF (monoAt 8 1 6 0 0xFC) = none :=
  ⟨⟨_, rfl⟩, by decide, ⟨_, rfl⟩, by decide⟩

/-- A PIX that stores, one that gathers a bit, a BEGIN that creates an OB, one that is skipped, a SETW, a reset, and
no input. -/
theorem witness_BlockNeverReadsOb :
    (∃ t, step (waiting (rgbAt 3 3 2 1) (.command 0x05240055FF)) = .next t) ∧
    storeOf 0x240055FF (rgbAt 3 3 2 1) = some (5, 0x21) ∧
    (∃ t, step (waiting (monoAt 8 1 6 0 0xFC) (.command 0x05FFFFFFFF)) = .next t) ∧
    storeOf 0xFFFFFFFF (monoAt 8 1 6 0 0xFC) = none ∧
    (∃ t, step (waiting (idle .mono 16 2) (.command 0x0400000000)) = .next t) ∧
    (∃ t, step (waiting (idle .mono 12 3) (.command 0x0400000000)) = .next t) ∧
    (∃ t, step (waiting (idle .mono 12 3) (.command 0x0200000002)) = .next t) ∧
    (∃ t, step (waiting faulted .reset) = .next t) ∧ (∃ t, step State.reset = .next t) :=
  ⟨⟨_, rfl⟩, by decide, ⟨_, rfl⟩, by decide, ⟨_, rfl⟩, ⟨_, rfl⟩, ⟨_, rfl⟩, ⟨_, rfl⟩, ⟨_, rfl⟩⟩

/-- CFG, SETW, SETH in the three states. -/
theorem witness_ConfigurationFrame :
    (∃ t, exec (.cfg true true 0xE3) State.reset = .next t) ∧ (∃ t, exec (.setw 2) (rgbAt 1 1 0 0) = .next t) ∧
    (∃ t, exec (.seth 2) faulted = .next t) := ⟨⟨_, rfl⟩, ⟨_, rfl⟩, ⟨_, rfl⟩⟩

/-- BEGIN skipped, of zero area, in ACTIVE, in FAULT. -/
theorem witness_BeginFrame :
    (∃ t, exec .begin (idle .mono 12 3) = .next t) ∧ (∃ t, exec .begin (idle .rgb332 0 5) = .next t) ∧
    (∃ t, exec .begin (rgbAt 1 1 0 0) = .next t) ∧ (∃ t, exec .begin faulted = .next t) :=
  ⟨⟨_, rfl⟩, ⟨_, rfl⟩, ⟨_, rfl⟩, ⟨_, rfl⟩⟩

/-- PIX that stores in mid-image, that faults, that gathers a bit, that is ignored. -/
theorem witness_PixFrame :
    (∃ t, exec (.pix 0x240055FF) (rgbAt 3 3 1 1) = .next t ∧ t.state ≠ .fault) ∧
    (∃ t, exec (.pix 0x24005580) (rgbAt 3 3 1 1) = .next t ∧ t.state = .fault) ∧
    (∃ t, exec (.pix 0x000000FF) (monoAt 16 3 6 0 0xA8) = .next t ∧ t.state ≠ .fault) ∧
    (∃ t, exec (.pix 0x000000FF) faulted = .next t ∧ faulted.state = .fault) :=
  ⟨⟨_, rfl, by decide⟩, ⟨_, rfl, by decide⟩, ⟨_, rfl, by decide⟩, ⟨_, rfl, by decide⟩⟩

theorem witness_PixStoredByteReadsBack :
    Memory.wf (rgbAt 3 3 2 1).ob ∧ (∃ t, exec (.pix 0x240055FF) (rgbAt 3 3 2 1) = .next t) ∧
    storeOf 0x240055FF (rgbAt 3 3 2 1) = some (5, 0x21) := ⟨by decide, ⟨_, rfl⟩, by decide⟩

/-- A pixel fault, an illegal word, a protocol fault. -/
theorem witness_FaultEntryWritesFourRegisters :
    (∃ t, step (waiting (monoAt 8 1 5 0 0xD0) (.command 0x05FF0000FF)) = .next t ∧ t.state = .fault) ∧
    (∃ t, step (waiting State.reset (.command 0x0600000005)) = .next t ∧ t.state = .fault) ∧
    (∃ t, step (waiting State.reset (.command 0x0512345600)) = .next t ∧ t.state = .fault) ∧
    State.reset.state ≠ .fault ∧ (monoAt 8 1 5 0 0xD0).state ≠ .fault :=
  ⟨⟨_, rfl, by decide⟩, ⟨_, rfl, by decide⟩, ⟨_, rfl, by decide⟩, by decide, by decide⟩

/-- One case for each branch of the order of 60 R167: ignored; ILLEGAL before PROTOCOL; PROTOCOL before the pixel
tests; alpha before the channels; MONO mode's one test. -/
theorem witness_FaultPriority :
    (∃ t, step (waiting faulted (.command 0)) = .next t) ∧
    (∃ t, step (waiting (rgbAt 1 1 0 0) (.command 0x0400000001)) = .next t) ∧
    (∃ t, step (waiting State.reset (.command 0x0512345600)) = .next t) ∧
    (∃ t, step (waiting (rgbAt 1 1 0 0) (.command 0x0525005580)) = .next t) ∧
    (∃ t, step (waiting (monoAt 8 1 5 0 0xD0) (.command 0x0500000000)) = .next t) ∧
    (∃ t, step (waiting (rgbAt 1 1 0 0) (.command 0x0200000002)) = .next t) :=
  ⟨⟨_, rfl⟩, ⟨_, rfl⟩, ⟨_, rfl⟩, ⟨_, rfl⟩, ⟨_, rfl⟩, ⟨_, rfl⟩⟩

theorem witness_OnlyResetLeavesFault :
    (∃ t, step (waiting faulted .reset) = .next t) ∧ (∃ t, step (waiting faulted (.command 0x0400000000)) = .next t) ∧
    faulted.state = .fault := ⟨⟨_, rfl⟩, ⟨_, rfl⟩, by decide⟩

/-- The four transitions: reset, a BEGIN that starts, the last PIX, a fault. -/
theorem witness_StateTransitions :
    (∃ t, step (waiting faulted .reset) = .next t ∧ t.state ≠ faulted.state) ∧
    (∃ t, step (waiting (idle .rgb332 3 2) (.command 0x0400000000)) = .next t ∧ t.state ≠ .idle) ∧
    (∃ t, step (waiting (rgbAt 1 1 0 0) (.command 0x05240055FF)) = .next t ∧ t.state ≠ .active) ∧
    (∃ t, step (waiting State.reset (.command 0)) = .next t ∧ t.state ≠ .idle) :=
  ⟨⟨_, rfl, by decide⟩, ⟨_, rfl, by decide⟩, ⟨_, rfl, by decide⟩, ⟨_, rfl, by decide⟩⟩

/-- With the three `witness_inv` theorems; also for `StepCompletesUnderInv`. -/
theorem witness_StepKeepsInv :
    Inv (waiting (monoAt 8 1 7 0 0xFE) (.command 0x05FFFFFFFF)) ∧
    ∃ t, step (waiting (monoAt 8 1 7 0 0xFE) (.command 0x05FFFFFFFF)) = .next t :=
  ⟨by constructor <;> decide, _, rfl⟩

/-- With `witness_inv_rgb332` and `witness_inv_mono`: a BEGIN that starts; a PIX that stores and completes, one
that gathers a bit. -/
theorem witness_StoresGoInAscendingOrder :
    ((idle .mono 16 2).state = .idle ∧ ∃ t, exec .begin (idle .mono 16 2) = .next t ∧ t.state = .active) ∧
    (∃ t, exec (.pix 0xFFFFFFFF) (monoAt 8 1 7 0 0xFE) = .next t ∧ t.state = .idle) ∧
    storeOf 0xFFFFFFFF (monoAt 8 1 7 0 0xFE) = some (0, 0xFF) ∧
    (∃ t, exec (.pix 0x240055FF) (rgbAt 3 2 2 1) = .next t ∧ t.state ≠ .fault) :=
  ⟨⟨by decide, _, rfl, by decide⟩, ⟨_, rfl, by decide⟩, by decide, ⟨_, rfl, by decide⟩⟩

/-- With `witness_inv_rgb332` and `witness_inv_mono`. -/
theorem witness_LastPixelCompletesImage :
    (rgbAt 3 2 2 1).x.toNat + 1 = 3 ∧ (rgbAt 3 2 2 1).y.toNat + 1 = 2 ∧
    select332 0x240055FF true 0xE3 = .byte 0x21 ∧
    (monoAt 8 1 7 0 0xFE).x.toNat + 1 = 8 ∧ (monoAt 8 1 7 0 0xFE).y.toNat + 1 = 1 ∧
    monoBit 0xFFFFFFFF ≠ .invalid := by decide

/-- After reset, and after an image of the same size that completed with other contents. -/
theorem witness_NextImageForgetsTheLast :
    (idle .mono 8 1).state = .idle ∧ { idle .mono 8 1 with y := 1, result := .done, ob := [(0, 0xFF)] }.state = .idle ∧
    ¬ ((idle .mono 8 1).mode = .mono ∧ (idle .mono 8 1).width.toNat % 8 ≠ 0) ∧
    (∃ t, exec .begin (idle .mono 8 1) = .next t) ∧
    ∃ t, exec .begin { idle .mono 8 1 with y := 1, result := .done, ob := [(0, 0xFF)] } = .next t :=
  ⟨by decide, by decide, by decide, ⟨_, rfl⟩, ⟨_, rfl⟩⟩

/-- An image of two pixels encoded, one of zero area, one with a fatal second pixel. -/
theorem witness_Rgb332ImageRefinesEncode :
    State.reset.state = .idle ∧ State.reset.mode = .rgb332 ∧
    [0xFFFFFFFF, 0x240055FF].length = (2 : Dim).toNat * (1 : Dim).toNat ∧
    { State.reset with inputs := imageInputs 2 1 [0xFFFFFFFF, 0x240055FF] }.inputs =
      imageInputs 2 1 [0xFFFFFFFF, 0x240055FF] ++ [] ∧
    encode332 2 1 [0xFFFFFFFF, 0x240055FF] false 0 = .ok [0xFF, 0x21] ∧ encode332 0 5 [] false 0 = .ok [] ∧
    encode332 2 1 [0xFFFFFFFF, 0x12345600] false 0 = .fatal .transparentNoMask 1 0x12345600 := by decide

/-- An image skipped, one of zero area, one with a fatal sixth pixel (95 P8); `test_encodeMono` has one
encoded. -/
theorem witness_MonoImageRefinesEncode :
    (idle .mono 0 0).state = .idle ∧ (idle .mono 0 0).mode = .mono ∧
    [0xFF, 0xFFFFFFFF, 0xFF, 0xFFFFFFFF].length = (2 : Dim).toNat * (2 : Dim).toNat ∧
    { idle .mono 0 0 with inputs := imageInputs 0 5 [] }.inputs = imageInputs 0 5 [] ++ [] ∧
    encodeMono 2 2 [0xFF, 0xFFFFFFFF, 0xFF, 0xFFFFFFFF] = .skipped ∧ encodeMono 0 5 [] = .ok [] ∧
    encodeMono 8 1 [0xFFFFFFFF, 0xFFFFFFFF, 0xFF, 0xFFFFFFFF, 0xFF, 0xFF0000FF, 0xFF, 0xFF] =
      .fatal .invalidMonoPixel 5 0xFF0000FF := by decide

end Sys2Proof.Tests
end

section
/-! The family 00_scope.md: what the oldest input of the host makes of a step (rule R12). -/

namespace Sys2Proof.Machine

variable {s : State}

theorem State.takeInput_of_nil (h : s.inputs = []) : s.takeInput = none := by
  simp only [State.takeInput, h]

theorem State.takeInput_of_cons {e : Input} {rest : List Input} (h : s.inputs = e :: rest) :
    s.takeInput = some (e, s.setInputs rest) := by
  simp only [State.takeInput, h]

end Sys2Proof.Machine

namespace Sys2Proof.Proofs

open Sys2Proof.Machine

/-- Settles O9: the word is taken, and its decoding selects the arm of `step` that runs `exec`. -/
theorem stepRunsDecodedCommand : Obligations.StepRunsDecodedCommand := by
  intro s w i rest hinputs hdecode
  have htake : s.takeInput = some (.command w, { s with inputs := rest }) :=
    State.takeInput_of_cons hinputs
  simp only [step, htake, hdecode]

/-- Settles O10: there is no input to take, and that arm of `step` answers the state itself. -/
theorem stepWithoutInput : Obligations.StepWithoutInput := by
  intro s hinputs
  simp only [step, State.takeInput_of_nil hinputs]

end Sys2Proof.Proofs
end

section
/-! The family 10_state.md: the derived quantities (rule R40), what every step keeps (rules R37, R38), the frames of
the operations (rule R36), and the codes of the registers (rules R23 to R35, R39). -/

namespace Sys2Proof.Machine

variable {s t : State}

/-! ### Positions and derived quantities (10 R40) -/

/-- A coordinate below a bound of its own width has a successor without wrap-around. -/
theorem toNat_add_one_of_lt {a b : Dim} (h : a < b) : (a + 1).toNat = a.toNat + 1 := by
  bv_omega

/-- How many pixels a byte of OB takes (10 R40, R41). -/
def State.pixelsPerByte (s : State) : Nat :=
  match s.mode with
  | .rgb332 => 1
  | .mono => 8

/-- NBYTES in both modes at once. -/
theorem State.nbytes_eq (s : State) : s.nbytes = s.width.toNat / s.pixelsPerByte * s.height.toNat := by
  unfold State.nbytes State.pixelsPerByte
  cases s.mode
  · simp only [Nat.div_one]
  · rfl

/-- OADDR in both modes at once. -/
theorem State.oaddr_eq (s : State) :
    s.oaddr = s.y.toNat * (s.width.toNat / s.pixelsPerByte) + s.x.toNat / s.pixelsPerByte := by
  unfold State.oaddr State.pixelsPerByte
  cases s.mode
  · simp only [Nat.div_one]
  · rfl

/-- The position after `advance()`: the next column, or the start of the next row. -/
theorem State.advanced_position (s : State) :
    s.advanced.x = (if s.x.toNat + 1 < s.width.toNat then s.x + 1 else 0) ∧
    s.advanced.y = (if s.x.toNat + 1 < s.width.toNat then s.y else s.y + 1) := by
  rcases s.advanced_cases with ⟨hx, e⟩ | ⟨hx, -, e⟩ | ⟨hx, -, e⟩ <;> simp [e, hx]

/-- `advance()` moves OADDR by one when the pixel is the last of its byte, else by none, at a row's end too. -/
theorem State.oaddr_advanced (hx : s.x < s.width) (hy : s.y < s.height) :
    s.advanced.oaddr = s.oaddr + if s.pixelsPerByte ∣ s.x.toNat + 1 then 1 else 0 := by
  have hppb : s.advanced.pixelsPerByte = s.pixelsPerByte := by
    simp only [State.pixelsPerByte, s.advanced_frame]
  have hnext : s.advanced.oaddr =
      s.y.toNat * (s.width.toNat / s.pixelsPerByte) + (s.x.toNat + 1) / s.pixelsPerByte := by
    obtain ⟨ex, ey⟩ := s.advanced_position
    rw [State.oaddr_eq, hppb, ex, ey]
    simp only [s.advanced_frame]
    by_cases hcol : s.x.toNat + 1 < s.width.toNat
    · rw [if_pos hcol, if_pos hcol, toNat_add_one_of_lt hx]
    · have hw : s.x.toNat + 1 = s.width.toNat := by
        rw [BitVec.lt_def] at hx
        omega
      rw [if_neg hcol, if_neg hcol, toNat_add_one_of_lt hy, hw, Nat.add_one_mul]
      simp
  rw [hnext, Nat.succ_div, State.oaddr_eq, Nat.add_assoc]

/-- When `advance()` completes the image, OADDR has reached NBYTES. -/
theorem State.oaddr_advanced_of_idle (h : s.state = .active) (hy : s.y < s.height)
    (hidle : s.advanced.state = .idle) : s.advanced.oaddr = s.advanced.nbytes := by
  rcases s.advanced_cases with ⟨-, e⟩ | ⟨-, -, e⟩ | ⟨-, hend, e⟩
  · simp [e, h] at hidle
  · simp [e, h] at hidle
  · have hlast : s.advanced.y.toNat = s.advanced.height.toNat := by
      rw [e]
      exact (toNat_add_one_of_lt hy).trans hend
    rw [State.oaddr_eq, State.nbytes_eq, hlast, Nat.mul_comm]
    simp [e]

/-- A product of two 32-bit numbers plus a third fits 64 bits. -/
theorem mul_add_lt_two_pow_64 {a b c : Nat} (ha : a < 2 ^ 32) (hb : b < 2 ^ 32) (hc : c < 2 ^ 32) :
    a * b + c < 2 ^ 64 := by
  have hab : a * b ≤ (2 ^ 32 - 1) * (2 ^ 32 - 1) := Nat.mul_le_mul (by omega) (by omega)
  omega

/-! ### What `advance()` does to STATE and RESULT -/

theorem State.advanced_ne_fault (h : s.state = .active) : s.advanced.state ≠ .fault := by
  rcases s.advanced_cases with ⟨-, e⟩ | ⟨-, -, e⟩ | ⟨-, -, e⟩ <;> simp [e, h]

/-- Before the last pixel `advance()` keeps STATE and RESULT. -/
theorem State.advanced_of_not_last
    (h : s.x.toNat + 1 < s.width.toNat ∨ s.y.toNat + 1 ≠ s.height.toNat) :
    s.advanced.state = s.state ∧ s.advanced.result = s.result := by
  rcases s.advanced_cases with ⟨-, e⟩ | ⟨-, -, e⟩ | ⟨hx, hy, -⟩
  · simp [e]
  · simp [e]
  · exact absurd h (by simp [hx, hy])

/-! ### The bytes of OB as the host reads them -/

@[simp] theorem State.configure_obByte (m : Mode) (e : Bool) (k : Byte) (a : Nat) :
    (s.configure m e k).obByte a = s.obByte a := rfl
@[simp] theorem State.setWidth_obByte (v : Dim) (a : Nat) : (s.setWidth v).obByte a = s.obByte a := rfl
@[simp] theorem State.setHeight_obByte (v : Dim) (a : Nat) : (s.setHeight v).obByte a = s.obByte a := rfl
@[simp] theorem State.clearPosition_obByte (a : Nat) : s.clearPosition.obByte a = s.obByte a := rfl
@[simp] theorem State.setResult_obByte (r : Result) (a : Nat) : (s.setResult r).obByte a = s.obByte a := rfl
@[simp] theorem State.setAcc_obByte (v : Byte) (a : Nat) : (s.setAcc v).obByte a = s.obByte a := rfl
@[simp] theorem State.enterFault_obByte (c : Cause) (op : Byte) (arg : Arg) (a : Nat) :
    (s.enterFault c op arg).obByte a = s.obByte a := rfl

/-- `advance()` stores nothing. -/
@[simp] theorem State.advanced_obByte (a : Nat) : s.advanced.obByte a = s.obByte a := by
  simp only [State.obByte, s.advanced_frame]

/-- A store leaves every other byte (20 R52). -/
theorem State.writeOb_obByte_other {a b : Nat} (h : b ≠ a) (v : Byte) :
    (s.writeOb a v).obByte b = s.obByte b := by
  simp [State.obByte, State.writeOb, Memory.read_write_other s.ob h]

/-! ### What each operation can answer -/

/-- The step that takes the reset event. -/
theorem step_of_reset {rest : List Input} (h : s.inputs = .reset :: rest) :
    step s = .next (s.setInputs rest).resetBlock := by
  simp only [step, State.takeInput_of_cons h]

/-- The ways a control operation answers a next state: ignored in FAULT, PROTOCOL in ACTIVE, performed in IDLE, for
which `exec_cfg_idle` and its like say what it does. -/
theorem exec_control_cases {i : Instr} (hi : ∀ p, i ≠ .pix p) (h : exec i s = .next t) :
    (s.state = .fault ∧ t = s) ∨
    (s.state = .active ∧ t = s.enterFault .protocol i.opcode i.arg) ∨ s.state = .idle := by
  cases hs : s.state with
  | idle => exact .inr (.inr rfl)
  | fault =>
    rw [exec_of_fault i hs] at h
    cases h
    exact .inl ⟨rfl, rfl⟩
  | active =>
    have wrong : ∀ o, performIn .idle i s o = .next (s.enterFault .protocol i.opcode i.arg) :=
      fun o => performIn_wrong (by simp [hs]) (by simp [hs])
    have e : exec i s = .next (s.enterFault .protocol i.opcode i.arg) := by
      cases i with
      | pix p => exact absurd rfl (hi p)
      | _ => exact wrong _
    rw [e] at h
    cases h
    exact .inr (.inl ⟨rfl, rfl⟩)

/-- BEGIN without a width skip, on an image of zero area (43 R145). -/
theorem State.beginImage_of_zeroArea (hskip : ¬ (s.mode = .mono ∧ s.width.toNat % 8 ≠ 0))
    (hz : s.width = 0 ∨ s.height = 0) :
    s.beginImage = (s.clearPosition.newBuffer s.nbytes).setResult .done := by
  rw [State.beginImage, if_neg (mt s.widthSkips_iff.1 hskip)]
  exact if_pos hz

/-- BEGIN without a width skip, on an image that has pixels (43 R144). -/
theorem State.beginImage_of_starts (hskip : ¬ (s.mode = .mono ∧ s.width.toNat % 8 ≠ 0))
    (hz : ¬ (s.width = 0 ∨ s.height = 0)) :
    s.beginImage = ((s.clearPosition.newBuffer s.nbytes).setResult .none).setRunState .active := by
  rw [State.beginImage, if_neg (mt s.widthSkips_iff.1 hskip)]
  exact if_neg hz

/-! ### Every operation on the state keeps the invariants (10 R37) -/

/-- A byte whose eight bits are 0 is 0. -/
theorem byte_eq_zero_of_bits {b : Byte} (h : ∀ j < 8, b.getLsbD j = false) : b = 0 :=
  BitVec.eq_of_getLsbD_eq fun j hj => by simp [h j hj]

/-- Outside ACTIVE the invariants that speak of an image in progress say nothing. -/
theorem Inv.of_not_active (hactive : t.state ≠ .active) (hcause : t.cause = .none ↔ t.state ≠ .fault)
    (hacc : t.state = .idle → t.acc = 0) (hwf : Memory.wf t.ob)
    (hbelow : ∀ c ∈ t.ob, ∃ n, t.obSize = some n ∧ c.1 < n)
    (hdone : t.result = .done → t.obSize.isSome) : Inv t where
  cause_none_iff := hcause
  active_width_pos h := absurd h hactive
  active_height_pos h := absurd h hactive
  active_x_lt h := absurd h hactive
  active_y_lt h := absurd h hactive
  active_result h := absurd h hactive
  mono_width h := absurd h hactive
  mono_acc_low h := absurd h hactive
  idle_acc := hacc
  rgb_acc _ hf := by
    cases hs : t.state with
    | idle => exact hacc hs
    | active => exact absurd hs hactive
    | fault => exact absurd hs hf
  ob_wf := hwf
  ob_below := hbelow
  active_obSize h := absurd h hactive
  done_obSize := hdone

/-- The host's pending inputs are no part of the invariants. -/
theorem Inv.setInputs (hi : Inv s) (l : List Input) : Inv (s.setInputs l) := { hi with }

theorem Inv.enterFault (hi : Inv s) {c : Cause} (hc : c ≠ .none) (op : Byte) (arg : Arg) :
    Inv (s.enterFault c op arg) :=
  .of_not_active (by simp) (by simp [hc]) (by simp) hi.ob_wf hi.ob_below hi.done_obSize

theorem Inv.resetBlock (hi : Inv s) : Inv s.resetBlock :=
  .of_not_active (by simp) (by simp) (by simp) hi.ob_wf hi.ob_below (by simp)

theorem illegalWord_keeps_inv (hi : Inv s) (w : Command) : Inv (illegalWord w s) := by
  rcases illegalWord_cases w s with ⟨-, e⟩ | ⟨-, e⟩ <;> rw [e]
  · exact hi
  · exact hi.enterFault (by decide) _ _

section Idle

variable (hi : Inv s) (h : s.state = .idle)
include hi h

theorem Inv.cause_of_idle : s.cause = .none := hi.cause_none_iff.2 (by simp [h])

theorem Inv.configure (m : Mode) (e : Bool) (k : Byte) : Inv (s.configure m e k) :=
  .of_not_active (by simp [h]) hi.cause_none_iff hi.idle_acc hi.ob_wf hi.ob_below hi.done_obSize

theorem Inv.setWidth (v : Dim) : Inv (s.setWidth v) :=
  .of_not_active (by simp [h]) hi.cause_none_iff hi.idle_acc hi.ob_wf hi.ob_below hi.done_obSize

theorem Inv.setHeight (v : Dim) : Inv (s.setHeight v) :=
  .of_not_active (by simp [h]) hi.cause_none_iff hi.idle_acc hi.ob_wf hi.ob_below hi.done_obSize

/-- BEGIN: a skip and a zero-area image stay in IDLE; an image that starts is at its first pixel, with ACC 0 and a
fresh OB. -/
theorem Inv.beginImage : Inv s.beginImage := by
  have hcause := hi.cause_of_idle h
  rcases s.beginImage_cases with ⟨-, -, e⟩ | ⟨-, -, e⟩ | ⟨hskip, hw, hh, e⟩ <;> rw [e]
  · exact .of_not_active (by simp [h]) hi.cause_none_iff (by simp) hi.ob_wf hi.ob_below (by simp)
  · exact .of_not_active (by simp [h]) hi.cause_none_iff (by simp) Memory.wf_nil (by simp) (by simp)
  · have hwidth : 0 < s.width := by bv_omega
    have hheight : 0 < s.height := by bv_omega
    exact {
      cause_none_iff := by simp [hcause]
      active_width_pos := fun _ => hwidth
      active_height_pos := fun _ => hheight
      active_x_lt := fun _ => hwidth
      active_y_lt := fun _ => hheight
      active_result := fun _ => rfl
      mono_width := fun _ hm => by simpa using mt (And.intro hm) hskip
      mono_acc_low := by simp
      idle_acc := by simp
      rgb_acc := by simp
      ob_wf := Memory.wf_nil
      ob_below := by simp
      active_obSize := fun _ => rfl
      done_obSize := by simp }

end Idle

/-- A store below OB's size. -/
theorem Inv.writeOb (hi : Inv s) {a : Nat} (ha : ∃ n, s.obSize = some n ∧ a < n) (v : Byte) :
    Inv (s.writeOb a v) := by
  obtain ⟨n, hn, han⟩ := ha
  have hbelow : ∀ c ∈ s.ob, c.1 < n := fun c hc => by
    obtain ⟨m, hm, hcm⟩ := hi.ob_below c hc
    cases hn.symm.trans hm
    exact hcm
  exact { hi with
    ob_wf := Memory.write_wf hi.ob_wf a v
    ob_below := fun c hc => ⟨n, hn, Memory.write_below hbelow han c hc⟩ }

section Active

variable (hi : Inv s) (h : s.state = .active)
include hi h

/-- A move to another pixel of the image, with the bits of ACC that its column allows. -/
theorem Inv.setAcc_setPosition {acc : Byte} {x y : Dim} (hx : x < s.width) (hy : y < s.height)
    (hrgb : s.mode = .rgb332 → acc = 0)
    (hlow : s.mode = .mono → ∀ j < 8 - x.toNat % 8, acc.getLsbD j = false) :
    Inv ((s.setAcc acc).setPosition x y) :=
  { hi with
    active_x_lt := fun _ => hx
    active_y_lt := fun _ => hy
    mono_acc_low := fun _ => hlow
    idle_acc := by simp [h]
    rgb_acc := fun hm _ => hrgb hm }

/-- `advance()` after ACC has taken the current pixel: what ACC holds is fit for the next column. -/
theorem Inv.setAcc_advanced {acc : Byte} (hrgb : s.mode = .rgb332 → acc = 0)
    (hlow : s.mode = .mono → ∀ j < 8 - (s.x.toNat + 1) % 8, acc.getLsbD j = false) :
    Inv (s.setAcc acc).advanced := by
  have hx := hi.active_x_lt h
  have hy := hi.active_y_lt h
  have acc_of_last : ¬ s.x.toNat + 1 < s.width.toNat → acc = 0 := fun hlast => by
    cases hm : s.mode with
    | rgb332 => exact hrgb hm
    | mono =>
      have h8 := hi.mono_width h hm
      have hmod : (s.x.toNat + 1) % 8 = 0 := by
        rw [BitVec.lt_def] at hx
        omega
      have hbits := hlow hm
      rw [hmod] at hbits
      exact byte_eq_zero_of_bits hbits
  rcases (s.setAcc acc).advanced_cases with ⟨hcol, e⟩ | ⟨hlast, hrow, e⟩ | ⟨hlast, -, e⟩ <;> rw [e]
  · have hx1 := toNat_add_one_of_lt hx
    refine hi.setAcc_setPosition h ?_ hy hrgb ?_
    · rw [BitVec.lt_def]
      exact hx1 ▸ hcol
    · exact hx1 ▸ hlow
  · have hacc := acc_of_last hlast
    refine hi.setAcc_setPosition h (hi.active_width_pos h) ?_ hrgb (by simp [hacc])
    have hrow' : s.y.toNat + 1 ≠ s.height.toNat := hrow
    rw [BitVec.lt_def] at hy ⊢
    rw [State.setAcc_y, toNat_add_one_of_lt (hi.active_y_lt h)]
    omega
  · have hcause : s.cause = .none := hi.cause_none_iff.2 (by simp [h])
    exact .of_not_active (by simp) (by simp [hcause]) (by simp [acc_of_last hlast]) hi.ob_wf hi.ob_below
      (by simp [hi.active_obSize h])

end Active

/-- PIX keeps the invariants: a bit gathered at column `k` leaves the bits below `7 - k` as they are. -/
theorem exec_pix_keeps_inv (hi : Inv s) {p : Arg} (h : exec (.pix p) s = .next t) : Inv t := by
  rcases exec_pix_cases h with ⟨-, rfl⟩ | ⟨-, rfl⟩ | ⟨-, -, c, hc, rfl⟩ |
    ⟨hs, -, hn, v, acc, -, hacc, rfl⟩ | ⟨hs, -, hm, h7, -, v, -, rfl⟩
  · exact hi
  · exact hi.enterFault (by decide) _ _
  · exact hi.enterFault hc _ _
  · have hacc0 : acc = 0 := by
      rcases hacc with ⟨hm, rfl⟩ | ⟨-, -, rfl⟩
      · exact hi.rgb_acc hm (by simp [hs])
      · rfl
    exact (hi.writeOb hn v).setAcc_advanced hs (fun _ => hacc0) (by simp [hacc0])
  · refine hi.setAcc_advanced hs (by simp [hm]) fun _ j hj => ?_
    have hacc := hi.mono_acc_low hs hm j (by omega)
    have hlane := laneBit_low v (s.x.toNat % 8) (by omega) j (by omega)
    simp [hacc, hlane]

/-- Every operation keeps the invariants. -/
theorem exec_keeps_inv (hi : Inv s) {i : Instr} (h : exec i s = .next t) : Inv t := by
  by_cases hp : ∃ p, i = .pix p
  · obtain ⟨p, rfl⟩ := hp
    exact exec_pix_keeps_inv hi h
  · rcases exec_control_cases (fun p e => hp ⟨p, e⟩) h with ⟨-, rfl⟩ | ⟨-, rfl⟩ | hs
    · exact hi
    · exact hi.enterFault (by decide) _ _
    · cases i with
      | cfg mono e m =>
        cases (exec_cfg_idle mono e m hs).symm.trans h
        exact hi.configure hs _ _ _
      | setw v =>
        cases (exec_setw_idle v hs).symm.trans h
        exact hi.setWidth hs v
      | seth v =>
        cases (exec_seth_idle v hs).symm.trans h
        exact hi.setHeight hs v
      | begin =>
        cases (exec_begin_idle hs).symm.trans h
        exact hi.beginImage hs
      | pix p => exact absurd ⟨p, rfl⟩ hp

end Sys2Proof.Machine

namespace Sys2Proof.Proofs

open Sys2Proof.Machine

/-- Settles O54: each of the four things a step does with the oldest input keeps the invariants. -/
theorem stepKeepsInv : Obligations.StepKeepsInv := by
  intro s t hi h
  rcases step_cases s with ⟨-, e⟩ | ⟨rest, -, e⟩ | ⟨w, i, rest, -, -, e⟩ | ⟨w, why, rest, -, -, e⟩ <;>
    rw [e] at h
  · cases h
    exact hi
  · cases h
    exact (hi.setInputs rest).resetBlock
  · exact exec_keeps_inv (hi.setInputs rest) h
  · cases h
    exact illegalWord_keeps_inv (hi.setInputs rest) w

/-- Settles O41: every index is a product of two numbers below 2^32, plus a third. -/
theorem indexArithmeticFits : Obligations.IndexArithmeticFits := by
  intro s
  have hw := s.width.isLt
  have hh := s.height.isLt
  have hrow := Nat.lt_of_le_of_lt (Nat.div_le_self s.width.toNat s.pixelsPerByte) hw
  have hcol := Nat.lt_of_le_of_lt (Nat.div_le_self s.x.toNat s.pixelsPerByte) s.x.isLt
  refine ⟨rfl, ?_, rfl, ?_, rfl, ?_⟩
  · exact mul_add_lt_two_pow_64 (c := 0) hw hh (by decide)
  · rw [State.nbytes_eq]
    exact mul_add_lt_two_pow_64 (c := 0) hrow hh (by decide)
  · rw [State.oaddr_eq]
    exact mul_add_lt_two_pow_64 s.y.isLt hrow hcol

/-- Settles O44: ignored, PROTOCOL, or in IDLE the one register write of the operation. -/
theorem configurationFrame : Obligations.ConfigurationFrame := by
  intro i s t hi h
  have hp : ∀ p, i ≠ .pix p := by
    rcases hi with ⟨_, _, _, rfl⟩ | ⟨_, rfl⟩ | ⟨_, rfl⟩ <;> simp
  rcases exec_control_cases hp h with ⟨hs, rfl⟩ | ⟨hs, rfl⟩ | hs
  · simp
  · simp [hs]
  · rcases hi with ⟨mono, e, m, rfl⟩ | ⟨v, rfl⟩ | ⟨v, rfl⟩
    · cases (exec_cfg_idle mono e m hs).symm.trans h
      simp [hs]
    · cases (exec_setw_idle v hs).symm.trans h
      simp [hs]
    · cases (exec_seth_idle v hs).symm.trans h
      simp [hs]

/-- Settles O45: ignored, PROTOCOL, or in IDLE the three outcomes of `beginImage`. -/
theorem beginFrame : Obligations.BeginFrame := by
  intro s t h
  rcases exec_control_cases (by simp) h with ⟨hs, rfl⟩ | ⟨hs, rfl⟩ | hs
  · simp
  · simp [hs]
  · cases (exec_begin_idle hs).symm.trans h
    have h8 (hskip : ¬ (s.mode = .mono ∧ s.width.toNat % 8 ≠ 0)) :
        s.mode = .mono → s.width.toNat % 8 = 0 := by simpa using hskip
    rcases s.beginImage_cases with ⟨-, -, e⟩ | ⟨hskip, -, e⟩ | ⟨hskip, hw, hh, e⟩ <;> rw [e]
    · simp [hs]
    · simp +contextual [hs, h8 hskip]
    · simp +contextual [hs, h8 hskip, show s.width ≠ 0#32 from hw, show s.height ≠ 0#32 from hh]

/-- Settles O46: ignored, a fault entry, or an `advance()` after the store or the bit gathered. -/
theorem pixFrame : Obligations.PixFrame := by
  intro p s t h
  rcases exec_pix_cases h with ⟨hs, rfl⟩ | ⟨hs, rfl⟩ | ⟨hs, -, c, -, rfl⟩ |
    ⟨hs, -, -, v, acc, -, hacc, rfl⟩ | ⟨hs, -, hm, -, -, v, -, rfl⟩
  · simp [hs]
  · simp [hs]
  · simp [hs]
  · have hacc' : s.mode = .rgb332 → acc = s.acc := by
      rcases hacc with ⟨-, e⟩ | ⟨hm, -, -⟩
      · exact fun _ => e
      · simp [hm]
    have h7 : s.mode = .mono → s.x.toNat % 8 = 7 := by
      rcases hacc with ⟨hm, -⟩ | ⟨-, h7, -⟩
      · simp [hm]
      · exact fun _ => h7
    simpa +contextual [State.advanced_frame, State.advanced_ne_fault, State.writeOb_obByte_other, hs, hacc', h7]
      using State.advanced_of_not_last (s := (s.writeOb s.oaddr v).setAcc acc)
  · simpa [State.advanced_frame, State.advanced_ne_fault, hs, hm]
      using State.advanced_of_not_last (s := s.setAcc (s.acc ||| laneBit v (s.x.toNat % 8)))

/-- Settles O56: `advance()` moves OADDR on the last pixel of a byte, which is the one that is stored. -/
theorem storesGoInAscendingOrder : Obligations.StoresGoInAscendingOrder := by
  refine ⟨fun s t hs h ht => ?_, fun p s t _ hs h ht => ?_⟩
  · cases (exec_begin_idle hs).symm.trans h
    rcases s.beginImage_cases with ⟨-, -, e⟩ | ⟨-, -, e⟩ | ⟨-, -, -, e⟩ <;> rw [e] at ht ⊢
    · simp [hs] at ht
    · simp [hs] at ht
    · simp [State.oaddr_eq]
  · rcases exec_pix_cases h with ⟨hs', -⟩ | ⟨hs', -⟩ | ⟨-, -, c, -, rfl⟩ |
      ⟨-, ⟨hx, hy⟩, -, v, acc, hstore, hacc, rfl⟩ | ⟨-, ⟨hx, hy⟩, hm, h7, hstore, v, -, rfl⟩
    · simp [hs] at hs'
    · simp [hs] at hs'
    · simp at ht
    · have hd : s.pixelsPerByte ∣ s.x.toNat + 1 := by
        rcases hacc with ⟨hm, -⟩ | ⟨hm, h7, -⟩ <;> simp only [State.pixelsPerByte, hm] <;> omega
      refine ⟨?_, ?_, fun hidle => State.oaddr_advanced_of_idle hs hy hidle⟩
      · have hnext := State.oaddr_advanced (s := (s.writeOb s.oaddr v).setAcc acc) hx hy
        rw [hnext, hstore]
        exact congrArg (s.oaddr + ·) (if_pos hd)
      · simp +contextual [hstore]
    · have hd : ¬ s.pixelsPerByte ∣ s.x.toNat + 1 := by
        simp only [State.pixelsPerByte, hm]
        omega
      refine ⟨?_, by simp [hstore], fun hidle => State.oaddr_advanced_of_idle hs hy hidle⟩
      have hnext := State.oaddr_advanced (s := s.setAcc (s.acc ||| laneBit v (s.x.toNat % 8))) hx hy
      rw [hnext, hstore]
      exact congrArg (s.oaddr + ·) (if_neg hd)

/-- Settles O58: which branch BEGIN takes and what it writes depend on the configuration and the dimensions alone. -/
theorem nextImageForgetsTheLast : Obligations.NextImageForgetsTheLast := by
  intro s s' t t' hs hs' hmode hmaskEn hmask hwidth hheight hskip h h'
  cases (exec_begin_idle hs).symm.trans h
  cases (exec_begin_idle hs').symm.trans h'
  have hskip' : ¬ (s'.mode = .mono ∧ s'.width.toNat % 8 ≠ 0) := by rwa [hmode, hwidth]
  have hnbytes : s'.nbytes = s.nbytes := by simp only [State.nbytes, hmode, hwidth, hheight]
  by_cases hz : s.width = 0 ∨ s.height = 0
  · have hz' : s'.width = 0 ∨ s'.height = 0 := by rwa [hwidth, hheight]
    rw [State.beginImage_of_zeroArea hskip hz, State.beginImage_of_zeroArea hskip' hz', hnbytes]
    simp only [State.clearPosition, State.newBuffer, State.setResult, hmode, hmaskEn, hmask, hwidth, hheight,
      hs, hs']
  · have hz' : ¬ (s'.width = 0 ∨ s'.height = 0) := by rwa [hwidth, hheight]
    rw [State.beginImage_of_starts hskip hz, State.beginImage_of_starts hskip' hz', hnbytes]
    simp only [State.clearPosition, State.newBuffer, State.setResult, State.setRunState, hmode, hmaskEn, hmask,
      hwidth, hheight]

/-- Settles O11: the step is the reset event on the state with the input taken. -/
theorem resetEventClearsRegisters : Obligations.ResetEventClearsRegisters := by
  intro s rest h
  refine ⟨_, step_of_reset h, ?_⟩
  simp [Mode.code, RunState.code, Result.code, Cause.code]

/-- Settles O12, by evaluating the one closed state. -/
theorem resetStateRegisters : Obligations.ResetStateRegisters := by
  unfold Obligations.ResetStateRegisters
  decide

/-- Settles O13: no name of STATE, RESULT or CAUSE has a reserved code. -/
theorem reservedCodesNeverShown : Obligations.ReservedCodesNeverShown := by
  have hstate : ∀ r : RunState, r.code ≠ 3 := by rintro (_ | _ | _) <;> decide
  have hresult : ∀ r : Result, r.code ≠ 3 := by rintro (_ | _ | _) <;> decide
  have hcause : ∀ c : Cause, c.code ≠ 7 := by rintro (_ | _ | _ | _ | _ | _ | _) <;> decide
  exact fun s => ⟨hstate s.state, hresult s.result, hcause s.cause⟩

/-- Settles O14: the codes name by name, and CFG in IDLE writes MODE from its bit. -/
theorem statusCodesAsNumbered : Obligations.StatusCodesAsNumbered := by
  refine ⟨fun s => ⟨?_, ?_, ?_, ?_, rfl, rfl, rfl, rfl⟩, fun mono maskEn mask s hs => ?_⟩
  · cases s.mode <;> rfl
  · cases h : s.state <;> simp [State.statusPorts, RunState.code, h]
  · cases h : s.result <;> simp [State.statusPorts, Result.code, h]
  · cases h : s.cause <;> simp [State.statusPorts, Cause.code, h]
  · refine ⟨_, exec_cfg_idle mono maskEn mask hs, ?_⟩
    cases mono <;> rfl

/-- Settles O53: reset is IDLE with no fault, ACC 0 and no OB. -/
theorem invAtReset : Obligations.InvAtReset :=
  .of_not_active (by decide) (by decide) (fun _ => rfl) Memory.wf_nil (by simp [State.reset]) (by simp [State.reset])

end Sys2Proof.Proofs
end

section
/-! The family 20_memory.md: the pixel word (rule R57), what one store does to OB (rules R50 to R53, R60), and that the
block never reads OB (rule R54). -/

namespace Sys2Proof.Machine

variable {s t : State}

/-! ### The pixel word (20 R57) -/

/-- `pack` is the concatenation of the four channels, red the most significant. -/
theorem pack_eq_append (q : Pixel) : pack q = q.r ++ (q.g ++ (q.b ++ q.a)) := by
  rw [← BitVec.setWidth_eq (q.r ++ (q.g ++ (q.b ++ q.a)))]
  simp only [pack, BitVec.setWidth_append_eq_shiftLeft_setWidth_or, BitVec.or_assoc]

/-- `unpack` takes the concatenation of four channels apart. -/
theorem unpack_append (r g b a : Byte) : unpack (r ++ (g ++ (b ++ a))) = ⟨r, g, b, a⟩ := by
  have hr : (r ++ (g ++ (b ++ a))).extractLsb' 24 8 = r := BitVec.extractLsb'_append_eq_left
  have hg : (r ++ (g ++ (b ++ a))).extractLsb' 16 8 = g := by
    rw [BitVec.extractLsb'_append_eq_of_add_le (by decide), BitVec.extractLsb'_append_eq_left]
  have hlow {start : Nat} (h : start + 8 ≤ 16) :
      (r ++ (g ++ (b ++ a))).extractLsb' start 8 = (b ++ a).extractLsb' start 8 := by
    rw [BitVec.extractLsb'_append_eq_of_add_le (by omega), BitVec.extractLsb'_append_eq_of_add_le h]
  rw [unpack, hr, hg, hlow (by decide), hlow (by decide), BitVec.extractLsb'_append_eq_left,
    BitVec.extractLsb'_append_eq_right]

/-- The four channels of a word, put together again, are the word. -/
theorem append_unpack (p : Arg) : (unpack p).r ++ ((unpack p).g ++ ((unpack p).b ++ (unpack p).a)) = p := by
  have hjoin (k : Nat) : p.extractLsb' k 8 ++ p.extractLsb' 0 k = p.extractLsb' 0 (8 + k) :=
    BitVec.extractLsb'_append_extractLsb'_eq_extractLsb' (Nat.zero_add k).symm
  rw [unpack, hjoin 8, hjoin 16, hjoin 24, BitVec.extractLsb'_eq_self]

/-! ### One store (20 R50 to R53) -/

/-- A store at an index that OB does not have stops the model (log 5). -/
theorem memWrite_of_outside {a : Nat} (h : ∀ n, s.obSize = some n → n ≤ a) (v : Byte) :
    memWrite a v s = .fault (.storeOutsideBuffer a) := by
  unfold memWrite
  cases hn : s.obSize with
  | none => rfl
  | some n => exact if_neg (Nat.not_lt.2 (h n hn))

/-- `advance()` outside its precondition stops the model (log 6). -/
theorem advance_of_outside (h : ¬ (s.x < s.width ∧ s.y < s.height)) :
    advance s = .fault .positionOutsideImage := if_neg h

/-- A store below OB's size is read back (20 R52). -/
theorem State.writeOb_obByte_same {a n : Nat} (hwf : Memory.wf s.ob) (hn : s.obSize = some n) (ha : a < n)
    (v : Byte) : (s.writeOb a v).obByte a = some v := by
  simp [State.obByte, hn, ha, Memory.read_write_same hwf]

/-- An OB with no byte listed reads 0 at each of its indices and has no other (20 R51, R53; log 3). -/
theorem State.obByte_of_zeros {n : Nat} (hn : s.obSize = some n) (hob : s.ob = []) (a : Nat) :
    s.obByte a = if a < n then some 0 else none := by
  simp only [State.obByte, hn, hob]
  rfl

/-- BEGIN with a width skip (43 R146). -/
theorem State.beginImage_of_skips (hskip : s.mode = .mono ∧ s.width.toNat % 8 ≠ 0) :
    s.beginImage = s.clearPosition.setResult .skipped :=
  if_pos (s.widthSkips_iff.2 hskip)

/-- BEGIN without a width skip makes OB all zero of length NBYTES, whether the image starts or completes (20 R53). -/
theorem State.beginImage_ob (hskip : ¬ (s.mode = .mono ∧ s.width.toNat % 8 ≠ 0)) :
    s.beginImage.obSize = some s.nbytes ∧ s.beginImage.ob = [] := by
  by_cases hz : s.width = 0 ∨ s.height = 0
  · simp [State.beginImage_of_zeroArea hskip hz]
  · simp [State.beginImage_of_starts hskip hz]

/-! ### The store of a PIX (20 R52, R60) -/

/-- Two continuations of a part of a step need agree only on the state that part leaves. -/
theorem Answer.andThen_congr {o : Answer} {f g : State → Answer} (h : ∀ u, o = .next u → f u = g u) :
    o.andThen f = o.andThen g := by
  cases o with
  | next u => exact h u rfl
  | fault r => rfl
  | refused r => rfl

/-- ACC after a PIX that stores: MONO mode clears it (42 R125), RGB332 mode does not write it (41 R110). -/
def State.accAfterStore (s : State) : Byte :=
  match s.mode with
  | .rgb332 => s.acc
  | .mono => 0

/-- A PIX that stores does so in ACTIVE, at OADDR: that one `MemWrite`, the write of ACC, and `advance()`. -/
theorem exec_pix_of_storeOf {p : Arg} {a : Nat} {v : Byte} (h : storeOf p s = some (a, v)) :
    s.state = .active ∧ a = s.oaddr ∧
    exec (.pix p) s = (memWrite a v s).andThen fun u => advance (u.setAcc s.accAfterStore) := by
  have hs : s.state = .active := by
    by_contra hs
    simp [storeOf, hs] at h
  refine ⟨hs, ?_⟩
  cases hm : s.mode with
  | rgb332 =>
    cases hsel : select332 p s.maskEn s.mask with
    | cause c => simp [storeOf, hs, hm, hsel] at h
    | byte y =>
      obtain ⟨rfl, rfl⟩ : s.oaddr = a ∧ y = v := by simpa [storeOf, hs, hm, hsel] using h
      refine ⟨rfl, ?_⟩
      rw [exec_pix_rgb332 p hs hm, pixRgb332, hsel]
      refine Answer.andThen_congr fun u hu => ?_
      obtain ⟨-, rfl⟩ := memWrite_eq_next.1 hu
      simp only [State.accAfterStore, hm]
      rfl
  | mono =>
    cases hv : monoBit p with
    | invalid => simp [storeOf, hs, hm, hv] at h
    | bit w =>
      by_cases h7 : s.x.toNat % 8 = 7
      · obtain ⟨rfl, rfl⟩ : s.oaddr = a ∧ (s.acc ||| laneBit w (s.x.toNat % 8)) = v := by
          simpa [storeOf, hs, hm, hv, h7] using h
        refine ⟨rfl, ?_⟩
        rw [exec_pix_mono p hs hm, pixMono, hv, State.accAfterStore, hm]
        exact if_pos h7
      · simp [storeOf, hs, hm, hv, h7] at h

/-- A MONO pixel that is accepted and not the eighth of its run is gathered and nothing is stored (42 R125). -/
theorem pixMono_of_gather {p : Arg} {v : Bool} (hv : monoBit p = .bit v) (h7 : s.x.toNat % 8 ≠ 7) :
    pixMono p s = advance (s.setAcc (s.acc ||| laneBit v (s.x.toNat % 8))) := by
  rw [pixMono, hv]
  exact if_neg h7

/-- What a PIX that stores leaves of OB: its one byte is written, below OB's size. -/
theorem exec_pix_writes {p : Arg} {a : Nat} {v : Byte} (h : exec (.pix p) s = .next t)
    (hst : storeOf p s = some (a, v)) :
    (∃ n, s.obSize = some n ∧ a < n) ∧ t.ob = Memory.write s.ob a v ∧ t.obSize = s.obSize := by
  obtain ⟨-, -, e⟩ := exec_pix_of_storeOf hst
  obtain ⟨u, hu, hadv⟩ := Answer.andThen_eq_next.1 (e.symm.trans h)
  obtain ⟨hn, rfl⟩ := memWrite_eq_next.1 hu
  obtain ⟨-, rfl⟩ := advance_eq_next.1 hadv
  exact ⟨hn, by simp [State.advanced_frame], by simp [State.advanced_frame]⟩

/-- A PIX that stores nothing leaves OB as it was. -/
theorem exec_pix_keeps_ob {p : Arg} (h : exec (.pix p) s = .next t) (hst : storeOf p s = none) : t.ob = s.ob := by
  rcases exec_pix_cases h with ⟨-, rfl⟩ | ⟨-, rfl⟩ | ⟨-, -, c, -, rfl⟩ |
    ⟨-, -, -, v, acc, hsome, -, -⟩ | ⟨-, -, -, -, -, v, -, rfl⟩
  · rfl
  · rfl
  · rfl
  · simp [hst] at hsome
  · simp [State.advanced_frame]

/-! ### The block never reads OB (20 R54) -/

/-- The state with other contents of OB. -/
def State.withOb (s : State) (m : List Host.Cell) : State := { s with ob := m }

@[simp] theorem State.withOb_mode (m : List Host.Cell) : (s.withOb m).mode = s.mode := rfl

/-- The answer of a run whose next state, if there is one, has the contents `m` of OB. -/
def Answer.withOb (o : Answer) (m : List Host.Cell) : Answer := o.andThen fun t => .next (t.withOb m)

/-- A part of a step that neither reads nor writes OB may be given any contents of it. -/
theorem Answer.withOb_andThen {f : State → Answer} {m : List Host.Cell}
    (hf : ∀ u, f (u.withOb m) = (f u).withOb m) (o : Answer) :
    (o.withOb m).andThen f = (o.andThen f).withOb m := by
  cases o with
  | next u => exact hf u
  | fault r => rfl
  | refused r => rfl

/-- `MemWrite` makes the same store whatever OB holds. -/
theorem memWrite_withOb (a : Nat) (v : Byte) (s : State) (m : List Host.Cell) :
    memWrite a v (s.withOb m) = (memWrite a v s).withOb (Memory.write m a v) := by
  by_cases h : ∃ n, s.obSize = some n ∧ a < n
  · have e : memWrite a v s = .next (s.writeOb a v) := memWrite_eq_next.2 ⟨h, rfl⟩
    rw [e]
    exact memWrite_eq_next.2 ⟨h, rfl⟩
  · have hout : ∀ n, s.obSize = some n → n ≤ a := fun n hn => Nat.not_lt.1 fun ha => h ⟨n, hn, ha⟩
    rw [memWrite_of_outside hout]
    exact memWrite_of_outside (s := s.withOb m) hout v

theorem State.advanced_withOb (s : State) (m : List Host.Cell) : (s.withOb m).advanced = s.advanced.withOb m := by
  simp only [State.advanced, apply_ite (State.withOb · m)]
  rfl

/-- `advance()` does not read OB. -/
theorem advance_withOb (s : State) (m : List Host.Cell) : advance (s.withOb m) = (advance s).withOb m := by
  by_cases h : s.x < s.width ∧ s.y < s.height
  · have e : advance s = .next s.advanced := advance_eq_next.2 ⟨h, rfl⟩
    rw [e]
    exact advance_eq_next.2 ⟨h, (s.advanced_withOb m).symm⟩
  · rw [advance_of_outside h]
    exact advance_of_outside h

/-- OB's contents after the store of a PIX, if it makes one (20 R52). -/
def afterStore (c : Option (Nat × Byte)) (m : List Host.Cell) : List Host.Cell :=
  match c with
  | some (a, v) => Memory.write m a v
  | none => m

/-- What an operation leaves of OB, given its contents before: the one store of a PIX, the zeros of a BEGIN that
creates an OB, or the same contents (20 R52, R53). -/
def obAfter (i : Instr) (s : State) (m : List Host.Cell) : List Host.Cell :=
  match i with
  | .cfg _ _ _ => m
  | .setw _ => m
  | .seth _ => m
  | .begin => if s.state = .idle ∧ ¬ (s.mode = .mono ∧ s.width.toNat % 8 ≠ 0) then [] else m
  | .pix p => afterStore (storeOf p s) m

/-- The table of 43 R140 on other contents of OB, for an effect that leaves `m'` of them. -/
theorem performIn_withOb {allowed : RunState} (hallowed : allowed ≠ .fault) {i : Instr} {o o' : Answer}
    {m m' : List Host.Cell} (hm : s.state ≠ allowed → m' = m) (ho : s.state = allowed → o' = o.withOb m') :
    performIn allowed i (s.withOb m) o' = (performIn allowed i s o).withOb m' := by
  by_cases hs : s.state = allowed
  · rw [performIn_allowed hs hallowed, ← ho hs]
    exact performIn_allowed hs hallowed
  · rw [hm hs]
    by_cases hf : s.state = .fault
    · rw [performIn_fault hf]
      exact performIn_fault hf
    · rw [performIn_wrong hs hf]
      exact performIn_wrong hs hf

/-- BEGIN in IDLE is the same on other contents of OB, and to OB it does what `obAfter` says. -/
theorem State.beginImage_withOb (s : State) (m : List Host.Cell) (h : s.state = .idle) :
    (s.withOb m).beginImage = s.beginImage.withOb (obAfter .begin s m) := by
  by_cases hskip : s.mode = .mono ∧ s.width.toNat % 8 ≠ 0
  · have hob : obAfter .begin s m = m := if_neg fun hcreates => hcreates.2 hskip
    rw [hob, State.beginImage_of_skips hskip, State.beginImage_of_skips (s := s.withOb m) hskip]
    rfl
  · have hob : obAfter .begin s m = [] := if_pos ⟨h, hskip⟩
    rw [hob]
    by_cases hz : s.width = 0 ∨ s.height = 0
    · rw [State.beginImage_of_zeroArea hskip hz, State.beginImage_of_zeroArea (s := s.withOb m) hskip hz]
      rfl
    · rw [State.beginImage_of_starts hskip hz, State.beginImage_of_starts (s := s.withOb m) hskip hz]
      rfl

/-- A PIX that stores makes the same store in other contents of OB. -/
theorem exec_pix_withOb_of_store {p : Arg} {a : Nat} {v : Byte} (hst : storeOf p s = some (a, v))
    (m : List Host.Cell) :
    exec (.pix p) (s.withOb m) = Answer.withOb (exec (.pix p) s) (Memory.write m a v) := by
  obtain ⟨-, -, e⟩ := exec_pix_of_storeOf hst
  obtain ⟨-, -, e'⟩ := exec_pix_of_storeOf (s := s.withOb m) hst
  rw [e, e', memWrite_withOb]
  exact Answer.withOb_andThen (fun u => advance_withOb (u.setAcc s.accAfterStore) _) _

/-- A PIX that stores nothing leaves other contents of OB alone. -/
theorem exec_pix_withOb_of_no_store {p : Arg} (hst : storeOf p s = none) (m : List Host.Cell) :
    exec (.pix p) (s.withOb m) = Answer.withOb (exec (.pix p) s) m := by
  refine performIn_withOb (by decide) (fun _ => rfl) fun hs => ?_
  cases hm : s.mode with
  | rgb332 =>
    cases hsel : select332 p s.maskEn s.mask with
    | byte y => simp [storeOf, hs, hm, hsel] at hst
    | cause c =>
      have hfault : pixRgb332 p s = .next (s.enterFault c 0x05 p) := pixRgb332_eq_next.2 (.inl ⟨c, hsel, rfl⟩)
      simp only [State.withOb_mode, hm]
      rw [hfault]
      exact pixRgb332_eq_next.2 (.inl ⟨c, hsel, rfl⟩)
  | mono =>
    cases hv : monoBit p with
    | invalid =>
      have hfault : pixMono p s = .next (s.enterFault .invalidMonoPixel 0x05 p) :=
        pixMono_eq_next.2 (.inl ⟨hv, rfl⟩)
      simp only [State.withOb_mode, hm]
      rw [hfault]
      exact pixMono_eq_next.2 (.inl ⟨hv, rfl⟩)
    | bit v =>
      have h7 : s.x.toNat % 8 ≠ 7 := fun h7 => by simp [storeOf, hs, hm, hv, h7] at hst
      simp only [State.withOb_mode, hm]
      rw [pixMono_of_gather hv h7, pixMono_of_gather (s := s.withOb m) hv h7]
      exact advance_withOb (s.setAcc (s.acc ||| laneBit v (s.x.toNat % 8))) m

/-- PIX on other contents of OB makes the same store in them, and is otherwise the same. -/
theorem exec_pix_withOb (p : Arg) (s : State) (m : List Host.Cell) :
    exec (.pix p) (s.withOb m) = Answer.withOb (exec (.pix p) s) (afterStore (storeOf p s) m) := by
  cases hst : storeOf p s with
  | none => exact exec_pix_withOb_of_no_store hst m
  | some c => exact exec_pix_withOb_of_store hst m

/-- 20 R54 for one operation: from any other contents of OB it does the same, and to OB what `obAfter` says. -/
theorem exec_withOb (i : Instr) (s : State) (m : List Host.Cell) :
    exec i (s.withOb m) = Answer.withOb (exec i s) (obAfter i s m) := by
  have idle_ne_fault : RunState.idle ≠ .fault := by decide
  cases i with
  | cfg mono e k => exact performIn_withOb idle_ne_fault (fun _ => rfl) (fun _ => rfl)
  | setw v => exact performIn_withOb idle_ne_fault (fun _ => rfl) (fun _ => rfl)
  | seth v => exact performIn_withOb idle_ne_fault (fun _ => rfl) (fun _ => rfl)
  | begin =>
    exact performIn_withOb idle_ne_fault (fun hs => if_neg fun h => hs h.1)
      fun hs => congrArg Host.Outcome.next (s.beginImage_withOb m hs)
  | pix p => exact exec_pix_withOb p s m

/-- An illegal word neither reads nor writes OB. -/
theorem illegalWord_withOb (w : Command) (s : State) (m : List Host.Cell) :
    illegalWord w (s.withOb m) = (illegalWord w s).withOb m := by
  rw [illegalWord, illegalWord, apply_ite (State.withOb · m)]
  rfl

theorem illegalWord_ob (w : Command) (s : State) : (illegalWord w s).ob = s.ob := by
  rcases illegalWord_cases w s with ⟨-, e⟩ | ⟨-, e⟩ <;> simp [e]

/-- The step that takes an illegal word. -/
theorem step_of_illegal {w : Command} {why : Illegal} {rest : List Input} (h : s.inputs = .command w :: rest)
    (hd : decode w = .illegal why) : step s = .next (illegalWord w (s.setInputs rest)) := by
  simp only [step, State.takeInput_of_cons h, hd]

/-- 20 R54 for the step that takes a legal word; with the contents that OB has, it says what OB holds afterwards. -/
theorem step_withOb_of_op {w : Command} {i : Instr} {rest : List Input} (hin : s.inputs = .command w :: rest)
    (hd : decode w = .op i) (h : step s = .next t) :
    (∀ m, step (s.withOb m) = .next (t.withOb (obAfter i s m))) ∧ t.ob = obAfter i s s.ob := by
  have hstep : ∀ m, step (s.withOb m) = .next (t.withOb (obAfter i s m)) := fun m => by
    have hrun : exec i (s.setInputs rest) = .next t := (Proofs.stepRunsDecodedCommand s w i rest hin hd).symm.trans h
    have hrest : obAfter i (s.setInputs rest) m = obAfter i s m := by cases i <;> rfl
    calc step (s.withOb m)
      _ = exec i ((s.setInputs rest).withOb m) := Proofs.stepRunsDecodedCommand (s.withOb m) w i rest hin hd
      _ = Answer.withOb (.next t) (obAfter i s m) := by rw [exec_withOb, hrun, hrest]
      _ = .next (t.withOb (obAfter i s m)) := rfl
  have hself : t.withOb (obAfter i s s.ob) = t := Host.Outcome.next.inj ((hstep s.ob).symm.trans h)
  exact ⟨hstep, (congrArg State.ob hself).symm⟩

end Sys2Proof.Machine

namespace Sys2Proof.Proofs

open Sys2Proof.Machine

/-- Settles O6: `pack` is a concatenation, and `unpack` takes it apart. -/
theorem packUnpack : Obligations.PackUnpack :=
  ⟨fun q => by rw [pack_eq_append, unpack_append], fun p => by rw [pack_eq_append, append_unpack], pack_eq_append⟩

/-- Settles O21: with no skip, OB is the fresh buffer of NBYTES bytes, and each byte of it reads 0. -/
theorem beginZeroesBuffer : Obligations.BeginZeroesBuffer := by
  intro s hs hskip
  obtain ⟨hsize, hob⟩ := State.beginImage_ob hskip
  have hread := State.obByte_of_zeros hsize hob
  exact ⟨s.beginImage, exec_begin_idle hs, hsize, fun a ha => (hread a).trans (if_pos ha),
    fun a ha => (hread a).trans (if_neg (Nat.not_lt.2 ha))⟩

/-- Settles O35: a PIX that stores is a `MemWrite` and an `advance()`, and the first of them outside its bounds stops
the model; one that gathers is an `advance()` alone. -/
theorem pixOutsideImageStops : Obligations.PixOutsideImageStops := by
  intro p s hs
  refine ⟨fun a v hst => ?_, fun hm hvalid h7 hxy => ?_⟩
  · obtain ⟨-, -, e⟩ := exec_pix_of_storeOf hst
    rw [e]
    refine ⟨fun hout => by rw [memWrite_of_outside hout]; rfl, fun n hn ha hxy => ?_⟩
    rw [memWrite_eq_next.2 ⟨⟨n, hn, ha⟩, rfl⟩]
    exact advance_of_outside hxy
  · cases hv : monoBit p with
    | invalid => exact absurd hv hvalid
    | bit v =>
      rw [exec_pix_mono p hs hm, pixMono_of_gather hv h7]
      exact advance_of_outside hxy

/-- Settles O40: `MemWrite` below OB's size is the one write, and under the invariants OADDR lies there. -/
theorem memWriteStoresOneByte : Obligations.MemWriteStoresOneByte := by
  refine ⟨fun a n v s hwf hn ha => ?_, fun p s a v hi hst => ?_⟩
  · exact ⟨s.writeOb a v, memWrite_eq_next.2 ⟨⟨n, hn, ha⟩, rfl⟩, State.writeOb_obByte_same hwf hn ha v,
      fun b hb => State.writeOb_obByte_other hb v, rfl, rfl, by simp [State.sameRegisters],
      Memory.write_wf hwf a v⟩
  · obtain ⟨hs, rfl, -⟩ := exec_pix_of_storeOf hst
    exact ⟨hi.oaddr_lt_nbytes hs, hi.active_obSize hs⟩

/-- Settles O42: the port shows the store of `storeOf`, whose address OADDR fits its 64 bits. -/
theorem storePortShowsTheStore : Obligations.StorePortShowsTheStore := by
  intro p s t h
  cases hst : storeOf p s with
  | none =>
    simp only [storePort, hst, Option.map_none]
    exact exec_pix_keeps_ob h hst
  | some c =>
    obtain ⟨a, v⟩ := c
    obtain ⟨-, rfl, -⟩ := exec_pix_of_storeOf hst
    obtain ⟨hn, hob, -⟩ := exec_pix_writes h hst
    obtain ⟨-, -, -, -, -, hfits⟩ := indexArithmeticFits s
    have haddr : (BitVec.ofNat 64 s.oaddr).toNat = s.oaddr := by
      rw [BitVec.toNat_ofNat, Nat.mod_eq_of_lt hfits]
    simp only [storePort, hst, Option.map_some, haddr]
    exact ⟨trivial, hob, hn⟩

/-- Settles O47: what a PIX stores is written below OB's size, and a byte written there reads back. -/
theorem pixStoredByteReadsBack : Obligations.PixStoredByteReadsBack := by
  intro p s t a v hwf h hst
  obtain ⟨⟨n, hn, ha⟩, hob, hsize⟩ := exec_pix_writes h hst
  have hread : t.obByte a = (s.writeOb a v).obByte a := by simp [State.obByte, hob, hsize]
  exact hread.trans (State.writeOb_obByte_same hwf hn ha v)

/-- Settles O43: taking the oldest input does not read OB, and `exec_withOb` says what each operation does on other
contents of it. -/
theorem blockNeverReadsOb : Obligations.BlockNeverReadsOb := by
  intro s t m h
  rcases step_cases s with ⟨hin, e⟩ | ⟨rest, hin, e⟩ | ⟨w, i, rest, hin, hd, -⟩ | ⟨w, why, rest, hin, hd, e⟩
  · cases e.symm.trans h
    exact ⟨m, stepWithoutInput (s.withOb m) hin, by simp [hin]⟩
  · cases e.symm.trans h
    exact ⟨m, step_of_reset (s := s.withOb m) hin, by simp [hin]⟩
  · obtain ⟨hstep, hob⟩ := step_withOb_of_op hin hd h
    refine ⟨obAfter i s m, hstep m, ?_⟩
    rw [hin]
    dsimp only
    rw [hd]
    cases i with
    | cfg mono en k => exact ⟨hob, rfl⟩
    | setw v => exact ⟨hob, rfl⟩
    | seth v => exact ⟨hob, rfl⟩
    | begin =>
      by_cases hcreates : s.state = .idle ∧ ¬ (s.mode = .mono ∧ s.width.toNat % 8 ≠ 0)
      · have hzeros (k : List Host.Cell) : obAfter .begin s k = [] := if_pos hcreates
        exact (if_pos hcreates).mpr ⟨hob.trans (hzeros _), hzeros m⟩
      · have hkept (k : List Host.Cell) : obAfter .begin s k = k := if_neg hcreates
        exact (if_neg hcreates).mpr ⟨hob.trans (hkept _), hkept m⟩
    | pix p =>
      have hpix (k : List Host.Cell) : obAfter (.pix p) s k = afterStore (storeOf p s) k := rfl
      refine ⟨rfl, ?_⟩
      rw [hob, hpix, hpix]
      cases hst : storeOf p s with
      | none => exact ⟨rfl, rfl⟩
      | some c =>
        obtain ⟨-, haddr, -⟩ := exec_pix_of_storeOf hst
        exact ⟨haddr, rfl, rfl⟩
  · cases e.symm.trans h
    refine ⟨m, (step_of_illegal (s := s.withOb m) hin hd).trans ?_, ?_⟩
    · exact congrArg Host.Outcome.next (illegalWord_withOb w (s.setInputs rest) m)
    · rw [hin]
      dsimp only
      rw [hd]
      exact ⟨illegalWord_ob w (s.setInputs rest), rfl⟩

end Sys2Proof.Proofs
end

section
/-! The family 30_encoding.md: the decoder against the encoder (rules R70 to R78), against the opcode map (rule R72)
and on illegal words (rule R79), and the words of the assembler's lines (rules R82 to R84). -/

namespace Sys2Proof

/-! ### The operand of CFG (30 R71, R75) -/

/-- The operand of CFG is 22 zero bits, the two flags and the mask, side by side. -/
theorem cfg_arg_eq_append (mono maskEn : Bool) (mask : Byte) :
    Instr.arg (.cfg mono maskEn mask) = 0#22 ++ (BitVec.ofBool mono ++ (BitVec.ofBool maskEn ++ mask)) := by
  rw [← BitVec.setWidth_eq (0#22 ++ (BitVec.ofBool mono ++ (BitVec.ofBool maskEn ++ mask)))]
  simp only [Instr.arg, BitVec.setWidth_append_eq_shiftLeft_setWidth_or, BitVec.setWidth_zero, BitVec.zero_shiftLeft,
    BitVec.zero_or, BitVec.or_assoc]

/-- The fields that the decoder takes from CFG's operand. -/
theorem cfg_arg_fields (mono maskEn : Bool) (mask : Byte) :
    (Instr.arg (.cfg mono maskEn mask)).extractLsb' 10 22 = 0#22 ∧
    (Instr.arg (.cfg mono maskEn mask)).getLsbD 9 = mono ∧
    (Instr.arg (.cfg mono maskEn mask)).getLsbD 8 = maskEn ∧
    (Instr.arg (.cfg mono maskEn mask)).extractLsb' 0 8 = mask := by
  rw [cfg_arg_eq_append]
  refine ⟨BitVec.extractLsb'_append_eq_left, ?_, ?_, ?_⟩
  · rw [BitVec.getLsbD_append, BitVec.getLsbD_append, BitVec.getLsbD_ofBool]
    rfl
  · rw [BitVec.getLsbD_append, BitVec.getLsbD_append, BitVec.getLsbD_append, BitVec.getLsbD_ofBool]
    rfl
  · rw [BitVec.extractLsb'_append_eq_of_add_le (by decide), BitVec.extractLsb'_append_eq_of_add_le (by decide),
      BitVec.extractLsb'_append_eq_right]

theorem ofBool_getLsbD {n : Nat} (x : BitVec n) (k : Nat) : BitVec.ofBool (x.getLsbD k) = x.extractLsb' k 1 := by
  apply BitVec.eq_of_getLsbD_eq
  intro j hj
  obtain rfl : j = 0 := by omega
  simp

/-- A CFG operand with zeros above bit 9 holds nothing but the fields that the decoder takes from it. -/
theorem cfg_arg_of_zeroField {arg : Arg} (h : arg.extractLsb' 10 22 = 0#22) :
    Instr.arg (.cfg (arg.getLsbD 9) (arg.getLsbD 8) (arg.extractLsb' 0 8)) = arg := by
  have hjoin (k n : Nat) : arg.extractLsb' k n ++ arg.extractLsb' 0 k = arg.extractLsb' 0 (n + k) :=
    BitVec.extractLsb'_append_extractLsb'_eq_extractLsb' (Nat.zero_add k).symm
  rw [cfg_arg_eq_append, ofBool_getLsbD, ofBool_getLsbD, hjoin 8, hjoin 9, ← h, hjoin 10, BitVec.extractLsb'_eq_self]

/-! ### What the decoder answers (30 R78, R79) -/

@[simp] theorem opField_encode (i : Instr) : opField (encode i) = i.opcode := opField_packCommand _ _

@[simp] theorem argField_encode (i : Instr) : argField (encode i) = i.arg := argField_packCommand _ _

/-- A word is an operation's when its two fields are. -/
theorem encode_eq_of_fields {i : Instr} {w : Command} (hop : opField w = i.opcode) (harg : i.arg = argField w) :
    encode i = w := by
  rw [encode, ← hop, harg, packCommand_fields]

/-- The fields of an illegal word (30 R79). -/
def IllegalFields (op : Byte) (arg : Arg) : Prop :=
  op = 0x00 ∨ 0x06 ≤ op ∨ (op = 0x01 ∧ arg.extractLsb' 10 22 ≠ 0) ∨ (op = 0x04 ∧ arg ≠ 0)

/-- The decoder's branches (30 R78): the operation whose word this is, or ILLEGAL. -/
theorem decode_cases (w : Command) :
    (∃ i, decode w = .op i ∧ encode i = w) ∨
    (∃ why, decode w = .illegal why ∧ IllegalFields (opField w) (argField w)) := by
  unfold decode
  dsimp only
  split_ifs with h1 hz h2 h3 h4 ha h5
  · exact .inl ⟨_, rfl, encode_eq_of_fields h1 (cfg_arg_of_zeroField hz)⟩
  · exact .inr ⟨_, rfl, .inr (.inr (.inl ⟨h1, hz⟩))⟩
  · exact .inl ⟨_, rfl, encode_eq_of_fields h2 rfl⟩
  · exact .inl ⟨_, rfl, encode_eq_of_fields h3 rfl⟩
  · exact .inl ⟨_, rfl, encode_eq_of_fields h4 ha.symm⟩
  · exact .inr ⟨_, rfl, .inr (.inr (.inr ⟨h4, ha⟩))⟩
  · exact .inl ⟨_, rfl, encode_eq_of_fields h5 rfl⟩
  · have hop : opField w = 0x00 ∨ 0x06 ≤ opField w := by bv_omega
    exact .inr ⟨_, rfl, hop.imp_right .inl⟩

theorem decode_encode (i : Instr) : decode (encode i) = .op i := by
  unfold decode
  rw [opField_encode, argField_encode]
  cases i with
  | cfg mono maskEn mask =>
    obtain ⟨hz, hmono, hmaskEn, hmask⟩ := cfg_arg_fields mono maskEn mask
    simp only [hz, hmono, hmaskEn, hmask]
    rfl
  | setw width => rfl
  | seth height => rfl
  | begin => rfl
  | pix p => rfl

theorem decode_eq_op_iff {w : Command} {i : Instr} : decode w = .op i ↔ encode i = w := by
  constructor
  · intro h
    rcases decode_cases w with ⟨j, hj, hw⟩ | ⟨why, hwhy, -⟩
    · cases hj.symm.trans h
      exact hw
    · cases hwhy.symm.trans h
  · rintro rfl
    exact decode_encode i

/-- No operation has the fields of an illegal word. -/
theorem not_illegalFields (i : Instr) : ¬ IllegalFields i.opcode i.arg := by
  unfold IllegalFields
  cases i with
  | cfg mono maskEn mask => simp [Instr.opcode, (cfg_arg_fields mono maskEn mask).1]
  | setw width => simp [Instr.opcode]
  | seth height => simp [Instr.opcode]
  | begin => simp [Instr.opcode, Instr.arg]
  | pix p => simp [Instr.opcode]

theorem decode_illegal_iff {w : Command} :
    (∃ why, decode w = .illegal why) ↔ IllegalFields (opField w) (argField w) := by
  rcases decode_cases w with ⟨i, hi, rfl⟩ | ⟨why, hwhy, hfields⟩
  · simp [hi, not_illegalFields]
  · exact ⟨fun _ => hfields, fun _ => ⟨why, hwhy⟩⟩

/-! ### The opcode map (30 R72) -/

theorem Instr.row_mem (i : Instr) : i.row ∈ opcodeMap := by
  cases i <;> simp [opcodeMap, Instr.row]

/-- Each operation's own row selects its word. -/
theorem Instr.row_selects_encode (i : Instr) : i.row.selects (encode i) = true := by
  have hrow : Laws.OwnRow.Statement i := by
    cases i with
    | cfg mono maskEn mask => exact Laws.OwnRow.cfg mono maskEn mask
    | setw width => exact Laws.OwnRow.setw width
    | seth height => exact Laws.OwnRow.seth height
    | begin => exact Laws.OwnRow.begin
    | pix p => exact Laws.OwnRow.pix p
  obtain ⟨-, -, hselects, -⟩ := hrow
  exact hselects

/-- CFG's row leaves nothing above bit 9 of the operand. -/
theorem zeroField_of_cfg_mask {arg : Arg} (h : arg &&& argField OpRow.cfg.mask = 0#32) :
    arg.extractLsb' 10 22 = 0#22 := by
  apply BitVec.eq_of_getLsbD_eq
  intro j hj
  have hbit := congrArg (BitVec.getLsbD · (10 + j)) h
  simp only [BitVec.getLsbD_and, Laws.cfg_mask_bits (10 + j) (by omega)] at hbit
  simpa [hj] using hbit

/-- Every row fixes the whole opcode byte. -/
theorem opField_mask : ∀ r ∈ opcodeMap, opField r.mask = BitVec.allOnes 8 := by decide

/-- A row selects the words of its own operations only. -/
theorem OpRow.exists_of_selects {r : OpRow} (hr : r ∈ opcodeMap) {w : Command} (h : r.selects w = true) :
    ∃ i : Instr, encode i = w ∧ i.row = r := by
  obtain ⟨hop, harg⟩ := (r.selects_fields w).1 h
  rw [opField_mask r hr, BitVec.and_allOnes] at hop
  simp only [opcodeMap, List.mem_cons, List.not_mem_nil, or_false] at hr
  rcases hr with rfl | rfl | rfl | rfl | rfl
  · have hw := cfg_arg_of_zeroField (zeroField_of_cfg_mask harg)
    exact ⟨.cfg _ _ _, encode_eq_of_fields hop hw, rfl⟩
  · exact ⟨.setw (argField w), encode_eq_of_fields hop rfl, rfl⟩
  · exact ⟨.seth (argField w), encode_eq_of_fields hop rfl, rfl⟩
  · exact ⟨.begin, encode_eq_of_fields hop (harg.symm.trans BitVec.and_allOnes), rfl⟩
  · exact ⟨.pix (argField w), encode_eq_of_fields hop rfl, rfl⟩

theorem OpRow.selects_iff {r : OpRow} (hr : r ∈ opcodeMap) {w : Command} :
    w &&& r.mask = r.pattern ↔ ∃ i, decode w = .op i ∧ i.row = r := by
  rw [← beq_iff_eq]
  constructor
  · intro h
    obtain ⟨i, hw, hrow⟩ := exists_of_selects hr h
    exact ⟨i, decode_eq_op_iff.2 hw, hrow⟩
  · rintro ⟨i, hd, rfl⟩
    exact decode_eq_op_iff.1 hd ▸ i.row_selects_encode

end Sys2Proof

namespace Sys2Proof.Machine

/-! ### The words of the assembler's lines (30 R82) -/

/-- The word of CFG with a mask: the mask is its low byte. -/
theorem encode_cfgOf_some (mono : Bool) (m : Byte) :
    encode (cfgOf mono (some m)) = (0x01#8 ++ (0#22 ++ (BitVec.ofBool mono ++ 1#1))) ++ m := by
  rw [BitVec.append_assoc, BitVec.append_assoc, BitVec.append_assoc, cfgOf, encode, packCommand, cfg_arg_eq_append]
  rfl

/-- The word of PIX for four channels, side by side. -/
theorem encode_pix_pack (q : Pixel) : encode (.pix (pack q)) = 0x05#8 ++ q.r ++ q.g ++ q.b ++ q.a := by
  rw [BitVec.append_assoc, BitVec.append_assoc, BitVec.append_assoc, encode, packCommand, Instr.arg, pack_eq_append]
  rfl

/-! ### The mask literal (30 R84) -/

/-- One binary digit: the value moves up by one place, and the digit takes the lowest. -/
theorem maskDigits_digit (n : Nat) (v : Byte) (d : Bool) (cs : List Char) :
    maskDigits (n + 1) v ((if d then '1' else '0') :: cs) = maskDigits n (v * 2 + if d then 1 else 0) cs := by
  have hdouble : v <<< 1 = v * 2 := BitVec.shiftLeft_eq_mul_twoPow v 1
  have hodd : v <<< 1 ||| 1 = v * 2 + 1 := by
    rw [← hdouble, BitVec.add_eq_or_of_and_eq_zero]
    apply BitVec.eq_of_getLsbD_eq
    intro j hj
    cases j <;> simp
  cases d with
  | false => exact congrArg (maskDigits n · cs) (hdouble.trans (BitVec.add_zero _).symm)
  | true => exact congrArg (maskDigits n · cs) hodd

/-- Reading goes character by character: it passes over an underscore, and any other character is kept. -/
theorem maskDigits_filter (cs : List Char) (n : Nat) (v : Byte) :
    maskDigits n v cs = maskDigits n v (cs.filter (· != '_')) := by
  fun_induction maskDigits n v cs with
  | case1 v => rfl
  | case2 n v => rfl
  | case3 n v cs ih => exact ih
  | case4 n v cs ih => exact ih
  | case5 n v cs ih => exact ih
  | case6 n v c cs hsep hzero hone =>
    rw [List.filter_cons_of_pos (by simpa using hsep), maskDigits]
    · exact hsep
    · exact hzero
    · exact hone

/-- A literal of as many digits as are wanted is read most significant digit first. -/
theorem maskDigits_digits (bits : List Bool) (v : Byte) :
    maskDigits bits.length v (bits.map fun d => if d then '1' else '0') =
      some (bits.foldl (fun v d => v * 2 + if d then 1 else 0) v) := by
  induction bits generalizing v with
  | nil => rfl
  | cons d bits ih =>
    rw [List.length_cons, List.map_cons, maskDigits_digit, ih, List.foldl_cons]

end Sys2Proof.Machine

namespace Sys2Proof.Proofs

open Sys2Proof.Machine

/-- Settles O1: the decoder takes from an operation's two fields what the encoder put there. -/
theorem decodeOfEncode : Obligations.DecodeOfEncode := decode_encode

/-- Settles O2: every branch of the decoder that answers an operation keeps all 40 bits. -/
theorem encodeOfDecode : Obligations.EncodeOfDecode := fun _ _ => decode_eq_op_iff.1

/-- Settles O3: a row selects the words that decode to its operations, a word decodes to one operation at most, and
every operation has its row in the map. -/
theorem wordSelectsOneRow : Obligations.WordSelectsOneRow := by
  refine ⟨rfl, fun w r hr => OpRow.selects_iff hr, fun w r r' hr hr' h h' => ?_, fun w => ⟨?_, fun h => ?_⟩⟩
  · obtain ⟨i, hi, rfl⟩ := (OpRow.selects_iff hr).1 h
    obtain ⟨i', hi', rfl⟩ := (OpRow.selects_iff hr').1 h'
    cases hi.symm.trans hi'
    rfl
  · rintro ⟨why, hwhy⟩ r hr h
    obtain ⟨i, hi, -⟩ := (OpRow.selects_iff hr).1 h
    cases hi.symm.trans hwhy
  · rcases decode_cases w with ⟨i, hi, -⟩ | ⟨why, hwhy, -⟩
    · exact absurd ((OpRow.selects_iff i.row_mem).2 ⟨i, hi, rfl⟩) (h i.row i.row_mem)
    · exact ⟨why, hwhy⟩

/-- Settles O4: the decoder rejects the words whose fields are illegal, and a step hands such a word to
`illegalWord`. -/
theorem illegalWordsFault : Obligations.IllegalWordsFault := by
  refine ⟨rfl, fun w => decode_illegal_iff, decode_illegal_iff.2 (.inl (by decide)),
    decode_illegal_iff.2 (.inr (.inl (by decide))), fun s w why rest hin hd => ?_⟩
  have hstep := step_of_illegal hin hd
  rcases illegalWord_cases w (s.setInputs rest) with ⟨hs, e⟩ | ⟨hs, e⟩ <;> rw [e] at hstep
  · exact ⟨fun h => absurd hs h, fun _ => hstep⟩
  · exact ⟨fun _ => hstep, fun h => absurd h hs⟩

/-- Settles O8: reading skips an underscore wherever it stands, and each digit doubles the value and adds itself. -/
theorem maskLiteralStripsUnderscores : Obligations.MaskLiteralStripsUnderscores := by
  refine ⟨fun cs => maskDigits_filter cs 8 0, fun bits hlen => ?_⟩
  have hdigits := maskDigits_digits bits 0
  rw [hlen] at hdigits
  exact hdigits

/-- Settles O5, by running the decoder on the six words. -/
theorem sampleWordsDecode : Obligations.SampleWordsDecode := by
  unfold Obligations.SampleWordsDecode
  decide

/-- Settles O7: a line is the words of its operations, and the word of an operation is its opcode and its operand
side by side. -/
theorem imageExpands : Obligations.ImageExpands := by
  refine ⟨fun w h => ⟨?_, rfl, rfl, rfl⟩, by decide, by decide, fun m => ⟨?_, ?_⟩, by decide, fun q => ?_,
    fun p => rfl, fun w => rfl⟩
  · simp [AsmLine.words, imageOps, decode_encode]
  · exact congrArg ([·]) (encode_cfgOf_some false m)
  · exact congrArg ([·]) (encode_cfgOf_some true m)
  · exact congrArg ([·]) (encode_pix_pack q)

end Sys2Proof.Proofs
end

section
/-! The family 40_lookup_table.md: the three tables (rules R90 to R94), `combine` (rule R95), the classes of `lookup`
(rules R96 to R99), and the mux with the PIX that follows it in RGB332 mode (rules R101, R110, R111). -/

namespace Sys2Proof.Machine

/-! ### The tables: each value carries its code in its top bits (40 R90 to R94) -/

/-- A table of codes, each at its level, when a level's top bits are its code: a value is found exactly when it is
the level of its own top bits, and these are then the code. -/
theorem lookup_levels {n : Nat} {level : BitVec n → Byte} {top : Byte → BitVec n} (htop : ∀ c, top (level c) = c)
    (codes : List (BitVec n)) (v : Byte) :
    (codes.map fun c => (level c, c)).lookup v =
      if top v ∈ codes ∧ v = level (top v) then some (top v) else none := by
  induction codes with
  | nil => simp
  | cons c codes ih =>
    by_cases hv : v = level c
    · subst hv
      simp [htop]
    · have hne : v = level (top v) → top v ≠ c := fun h hc => hv (hc ▸ h)
      have hcons : (top v ∈ c :: codes ∧ v = level (top v)) ↔ (top v ∈ codes ∧ v = level (top v)) := by
        rw [List.mem_cons]
        tauto
      simp only [List.map_cons, List.lookup_cons, beq_false_of_ne hv, ih, hcons]

/-- The top three bits of `rep3 c` are `c`. -/
theorem rep3_top (c : BitVec 3) : (rep3 c).extractLsb' 5 3 = c := by
  revert c
  decide

/-- The top two bits of the blue level `c * 0x55` are `c`. -/
theorem blueLevel_top (c : BitVec 2) : (c.setWidth 8 * 0x55 : Byte).extractLsb' 6 2 = c := by
  revert c
  decide

/-- 40 R94 for red: the eight levels are the patterns `rep3 c`. -/
theorem quantR_closed (v : Byte) :
    quantR v = if v = rep3 (v.extractLsb' 5 3) then some (v.extractLsb' 5 3) else none := by
  have htable : redTable = [0, 1, 2, 3, 4, 5, 6, 7].map fun c => (rep3 c, c) := by decide
  have hall : ∀ c : BitVec 3, c ∈ [0, 1, 2, 3, 4, 5, 6, 7] := by decide
  rw [quantR, htable, lookup_levels rep3_top]
  simp only [hall, true_and]

/-- 40 R91: the green table is the red one. -/
theorem quantG_eq_quantR (v : Byte) : quantG v = quantR v := rfl

/-- 40 R94 for blue: the four levels are the multiples of 0x55. -/
theorem quantB_closed (v : Byte) :
    quantB v = if v = (v.extractLsb' 6 2).setWidth 8 * 0x55 then some (v.extractLsb' 6 2) else none := by
  have htable : blueTable = [0, 1, 2, 3].map fun c => (c.setWidth 8 * 0x55, c) := by decide
  have hall : ∀ c : BitVec 2, c ∈ [0, 1, 2, 3] := by decide
  rw [quantB, htable, lookup_levels blueLevel_top]
  simp only [hall, true_and]

/-- In such a table a code is found for its own level alone. -/
theorem levels_eq_some {n : Nat} {level : BitVec n → Byte} {top : Byte → BitVec n} (htop : ∀ c, top (level c) = c)
    {v : Byte} {c : BitVec n} :
    (if v = level (top v) then some (top v) else none) = some c ↔ v = level c := by
  rw [Option.ite_none_right_eq_some, Option.some.injEq]
  constructor
  · rintro ⟨h, rfl⟩
    exact h
  · rintro rfl
    simp [htop]

theorem quantR_eq_some {v : Byte} {c : BitVec 3} : quantR v = some c ↔ v = rep3 c := by
  rw [quantR_closed]
  exact levels_eq_some rep3_top

theorem quantG_eq_some {v : Byte} {c : BitVec 3} : quantG v = some c ↔ v = rep3 c := by
  rw [quantG_eq_quantR, quantR_eq_some]

theorem quantB_eq_some {v : Byte} {c : BitVec 2} : quantB v = some c ↔ v = c.setWidth 8 * 0x55 := by
  rw [quantB_closed]
  exact levels_eq_some blueLevel_top

/-! ### `combine` (40 R95) -/

/-- `combine` is the concatenation of the three codes, red the most significant. -/
theorem combine_eq_append (cr cg : BitVec 3) (cb : BitVec 2) : combine cr cg cb = cr ++ (cg ++ cb) := by
  rw [← BitVec.setWidth_eq (cr ++ (cg ++ cb))]
  simp only [combine, BitVec.setWidth_append_eq_shiftLeft_setWidth_or, BitVec.or_assoc]

/-- The codes that `combine` put together are the byte's fields `[7:5]`, `[4:2]` and `[1:0]`. -/
theorem eq_combine_iff {y : Byte} {cr cg : BitVec 3} {cb : BitVec 2} :
    y = combine cr cg cb ↔ cr = y.extractLsb' 5 3 ∧ cg = y.extractLsb' 2 3 ∧ cb = y.extractLsb' 0 2 := by
  rw [combine_eq_append]
  constructor
  · rintro rfl
    refine ⟨BitVec.extractLsb'_append_eq_left.symm, ?_, ?_⟩
    · rw [BitVec.extractLsb'_append_eq_of_add_le (by decide), BitVec.extractLsb'_append_eq_left]
    · rw [BitVec.extractLsb'_append_eq_of_add_le (by decide), BitVec.extractLsb'_append_eq_right]
  · rintro ⟨rfl, rfl, rfl⟩
    have hjoin (k n : Nat) : y.extractLsb' k n ++ y.extractLsb' 0 k = y.extractLsb' 0 (n + k) :=
      BitVec.extractLsb'_append_extractLsb'_eq_extractLsb' (Nat.zero_add k).symm
    rw [hjoin 2, hjoin 5, BitVec.extractLsb'_eq_self]

/-- The three shifted codes have no bit in common. -/
theorem codes_disjoint (cr cg : BitVec 3) (cb : BitVec 2) :
    (cr.setWidth 8 <<< 5 : Byte) &&& cg.setWidth 8 <<< 2 = 0 ∧
    (cr.setWidth 8 <<< 5 ||| cg.setWidth 8 <<< 2 : Byte) &&& cb.setWidth 8 = 0 := by
  revert cr cg cb
  decide

/-- Exclusive or is or on words with no bit in common. -/
theorem xor_eq_or_of_and_eq_zero {n : Nat} {x y : BitVec n} (h : x &&& y = 0) : x ^^^ y = x ||| y := by
  ext i hi
  have hbit : (x &&& y)[i] = false := by simp [h]
  rw [BitVec.getElem_and] at hbit
  rw [BitVec.getElem_xor, BitVec.getElem_or]
  cases hx : x[i] <;> simp_all

/-! ### The classes of `lookup` (40 R96, R98) -/

/-- The four outcomes of `lookup`, in the order of its tests. -/
theorem lookup_cases (p : Arg) :
    ((unpack p).a = 0#8 ∧ lookup p = .transparent) ∨
    ((unpack p).a ≠ 0#8 ∧ (unpack p).a ≠ 255#8 ∧ lookup p = .unsupported .partialTransparency) ∨
    ((unpack p).a = 255#8 ∧
      (quantR (unpack p).r = none ∨ quantG (unpack p).g = none ∨ quantB (unpack p).b = none) ∧
      lookup p = .unsupported .unsupportedChannel) ∨
    ((unpack p).a = 255#8 ∧ ∃ cr cg cb,
      quantR (unpack p).r = some cr ∧ quantG (unpack p).g = some cg ∧ quantB (unpack p).b = some cb ∧
      lookup p = .supported (combine cr cg cb)) := by
  unfold lookup
  dsimp only
  by_cases h0 : (unpack p).a = 0#8
  · exact .inl ⟨h0, if_pos h0⟩
  by_cases h255 : (unpack p).a = 255#8
  · rw [if_neg h0, if_neg (not_not.2 h255)]
    refine .inr (.inr ?_)
    cases hr : quantR (unpack p).r with
    | none => exact .inl ⟨h255, .inl rfl, rfl⟩
    | some cr =>
      cases hg : quantG (unpack p).g with
      | none => exact .inl ⟨h255, .inr (.inl rfl), rfl⟩
      | some cg =>
        cases hb : quantB (unpack p).b with
        | none => exact .inl ⟨h255, .inr (.inr rfl), rfl⟩
        | some cb => exact .inr ⟨h255, cr, cg, cb, rfl, rfl, rfl, rfl⟩
  · exact .inr (.inl ⟨h0, h255, by rw [if_neg h0, if_pos h255]⟩)

/-- An alpha from 1 to 254 is neither of the two that `lookup` tests for. -/
theorem partial_alpha_iff {a : Byte} : 1 ≤ a.toNat ∧ a.toNat ≤ 254 ↔ a ≠ 0#8 ∧ a ≠ 255#8 := by
  bv_omega

/-! ### Pixel words -/

/-- A word is the packing of the four channels it unpacks to, and of no others (20 R57). -/
theorem eq_pack_iff {p : Arg} {q : Pixel} : p = pack q ↔ unpack p = q := by
  obtain ⟨hunpack, hpack, -⟩ := Proofs.packUnpack
  constructor
  · rintro rfl
    exact hunpack q
  · rintro rfl
    exact (hpack p).symm

end Sys2Proof.Machine

namespace Sys2Proof.Proofs

open Sys2Proof.Machine

/-- Settles O24: the accepted pixel's step is the one store, then `advance()` as `State.advanced_of_active` gives it. -/
theorem rgb332PixelStep : Obligations.Rgb332PixelStep := by
  refine ⟨fun p maskEn mask => ?_, fun p s hs hm => ?_⟩
  · unfold select332
    rcases lookup p with y | _ | (_ | _) <;> rfl
  · have haddr : s.oaddr = s.y.toNat * s.width.toNat + s.x.toNat := by simp only [State.oaddr, hm]
    rw [exec_pix_rgb332 p hs hm]
    refine ⟨fun c hc => pixRgb332_eq_next.2 (.inl ⟨c, hc, rfl⟩), fun b n hb hx hy hn hlt => ?_⟩
    rw [← haddr] at hlt ⊢
    rw [pixRgb332_eq_next.2 (.inr ⟨b, hb, ⟨n, hn, hlt⟩, ⟨hx, hy⟩, rfl⟩),
      State.advanced_of_active (s := s.writeOb s.oaddr b) hs]
    rfl

/-- Settles O38: in each of the four outcomes of `lookup`, the tests that led to it exclude the other three. -/
theorem lookupClasses : Obligations.LookupClasses := by
  intro p
  rw [partial_alpha_iff]
  have hcases := lookup_cases p
  simp only [unpack] at hcases
  rcases hcases with ⟨ha, e⟩ | ⟨h0, h255, e⟩ | ⟨ha, hnone, e⟩ | ⟨ha, cr, cg, cb, hr, hg, hb, e⟩ <;> rw [e]
  · simp [ha]
  · simp [h0, h255]
  · refine ⟨by simp [ha], by simp [ha], by simp [ha, hnone], fun y => iff_of_false (by simp) ?_⟩
    rintro ⟨-, cr, cg, cb, hr, hg, hb, -⟩
    simp [hr, hg, hb] at hnone
  · simp [ha, hr, hg, hb, eq_comm]

/-- Settles O39: a byte is the combination of its own three fields and no others, and the tables give a code to its
level alone. -/
theorem lookupIsBijection : Obligations.LookupIsBijection := by
  intro p y
  obtain ⟨-, -, -, hsupported⟩ := lookupClasses p
  rw [hsupported y, eq_pack_iff]
  simp only [quantR_eq_some, quantG_eq_some, quantB_eq_some, eq_combine_iff, unpack, Pixel.mk.injEq]
  constructor
  · rintro ⟨ha, _, _, _, hr, hg, hb, rfl, rfl, rfl⟩
    exact ⟨hr, hg, hb, ha⟩
  · rintro ⟨hr, hg, hb, ha⟩
    exact ⟨ha, _, _, _, hr, hg, hb, rfl, rfl, rfl⟩

/-- Settles O36: a closed form for each table, and the levels by their numbers. -/
theorem quantizeClosedForms : Obligations.QuantizeClosedForms :=
  ⟨quantR_closed, fun v => (quantG_eq_quantR v).trans (quantR_closed v), quantB_closed, by decide, by decide⟩

/-- Settles O37: the three shifted codes have no bit in common. -/
theorem combineFields : Obligations.CombineFields := by
  intro cr cg cb
  obtain ⟨hrg, hrgb⟩ := codes_disjoint cr cg cb
  refine ⟨?_, ?_, ?_⟩
  · rw [combine_eq_append, BitVec.append_assoc]
    rfl
  · rw [xor_eq_or_of_and_eq_zero hrg, xor_eq_or_of_and_eq_zero hrgb, combine]
  · rw [BitVec.add_eq_or_of_and_eq_zero _ _ hrg, BitVec.add_eq_or_of_and_eq_zero _ _ hrgb, combine]

end Sys2Proof.Proofs
end

section
/-! The family 41_rgb332_encoder.md: the single pixels of rules R110 to R115, where a run of an image stands in raster
order (43 R148, R149), what `encode332` answers (R116), and the run of an image in RGB332 mode against it (R117). -/

namespace Sys2Proof.Machine

variable {s t : State} {W H : Dim}

/-! ### The mux and one pixel (40 R101, 41 R110 to R115) -/

/-- A fully transparent pixel: the mask byte, or the fault of having none (41 R112, R113). -/
theorem select332_of_transparent {p : Arg} (ha : p.extractLsb' 0 8 = 0) (maskEn : Bool) (mask : Byte) :
    select332 p maskEn mask = if maskEn then .byte mask else .cause .transparentNoMask := by
  obtain ⟨htransparent, -⟩ := Proofs.lookupClasses p
  simp only [select332, htransparent.2 ha]

/-- An unsupported pixel: its reason is the cause, under every mask setting. -/
theorem select332_of_unsupported {p : Arg} {r : Reason} (h : lookup p = .unsupported r) (maskEn : Bool)
    (mask : Byte) : select332 p maskEn mask = .cause r.cause := by
  simp only [select332, h]

/-- A supported pixel: its byte, under every mask setting (41 R114). -/
theorem select332_of_supported {p : Arg} {y : Byte} (h : lookup p = .supported y) (maskEn : Bool) (mask : Byte) :
    select332 p maskEn mask = .byte y := by
  simp only [select332, h]

/-- A PIX that the mux turns down enters FAULT with the mux's cause (41 R110). -/
theorem exec_pix_of_cause {p : Arg} {c : Cause} (hs : s.state = .active) (hm : s.mode = .rgb332)
    (hc : select332 p s.maskEn s.mask = .cause c) : exec (.pix p) s = .next (s.enterFault c 0x05 p) :=
  (Proofs.rgb332PixelStep.2 p s hs hm).1 c hc

/-- Under the invariants a PIX that the mux accepts makes its store and advances (41 R110). -/
theorem Inv.exec_pix_of_byte (hi : Inv s) {p : Arg} {b : Byte} (hs : s.state = .active) (hm : s.mode = .rgb332)
    (hb : select332 p s.maskEn s.mask = .byte b) :
    exec (.pix p) s = .next (s.writeOb s.oaddr b).advanced := by
  rw [exec_pix_rgb332 p hs hm]
  exact pixRgb332_eq_next.2 (.inr ⟨b, hb, ⟨_, hi.active_obSize hs, hi.oaddr_lt_nbytes hs⟩,
    ⟨hi.active_x_lt hs, hi.active_y_lt hs⟩, rfl⟩)

/-- The state that such a PIX leaves has the byte at OADDR and is not in FAULT. -/
theorem Inv.writeOb_advanced (hi : Inv s) (hs : s.state = .active) (b : Byte) :
    (s.writeOb s.oaddr b).advanced.obByte s.oaddr = some b ∧
    (s.writeOb s.oaddr b).advanced.state ≠ .fault := by
  rw [State.advanced_obByte]
  exact ⟨State.writeOb_obByte_same hi.ob_wf (hi.active_obSize hs) (hi.oaddr_lt_nbytes hs) b,
    State.advanced_ne_fault hs⟩

theorem State.advanced_setAcc (s : State) (v : Byte) : (s.setAcc v).advanced = s.advanced.setAcc v := by
  simp only [State.advanced, apply_ite (State.setAcc · v)]
  rfl

/-- PIX in RGB332 mode does the same whatever ACC holds (41 R110). -/
theorem exec_pix_setAcc {p : Arg} (hm : s.mode = .rgb332) (h : exec (.pix p) s = .next t) (v : Byte) :
    exec (.pix p) (s.setAcc v) = .next (t.setAcc v) := by
  cases hs : s.state with
  | fault =>
    cases (exec_of_fault _ hs).symm.trans h
    exact exec_of_fault _ hs
  | idle =>
    have hwrong {u : State} (hu : u.state = .idle) : exec (.pix p) u = .next (u.enterFault .protocol 0x05 p) :=
      performIn_wrong (by simp [hu]) (by simp [hu])
    cases (hwrong hs).symm.trans h
    exact hwrong (u := s.setAcc v) hs
  | active =>
    rw [exec_pix_rgb332 p hs hm] at h
    rw [exec_pix_rgb332 (s := s.setAcc v) p hs hm]
    rcases pixRgb332_eq_next.1 h with ⟨c, hc, rfl⟩ | ⟨b, hb, hn, hxy, rfl⟩
    · exact pixRgb332_eq_next.2 (.inl ⟨c, hc, rfl⟩)
    · exact pixRgb332_eq_next.2 (.inr ⟨b, hb, hn, hxy, (State.advanced_setAcc _ v).symm⟩)

/-! ### Steps of a run -/

/-- The step that takes the word of an operation performs the operation. -/
theorem step_of_encode {i : Instr} {rest : List Input} (h : s.inputs = .command (encode i) :: rest) :
    step s = exec i (s.setInputs rest) :=
  Proofs.stepRunsDecodedCommand s (encode i) i rest h (decode_encode i)

/-- A run whose first step takes the word of an operation. -/
theorem run_op {k : Nat} {i : Instr} {rest : List Input} (h : s.inputs = .command (encode i) :: rest)
    (hexec : exec i (s.setInputs rest) = .next t) : core.run (k + 1) s = core.run k t :=
  run_succ ((step_of_encode h).trans hexec)

/-- In FAULT the step that takes a word only takes it (43 R150). -/
theorem step_of_fault {w : Command} {rest : List Input} (h : s.inputs = .command w :: rest)
    (hs : s.state = .fault) : step s = .next (s.setInputs rest) := by
  cases hd : decode w with
  | op i => exact (Proofs.stepRunsDecodedCommand s w i rest h hd).trans (exec_of_fault i hs)
  | illegal why => exact (step_of_illegal h hd).trans (congrArg Host.Outcome.next (if_pos hs))

/-- The words of a sequence of pixels, as the host issues them (43 R154). -/
def pixInputs (px : List Arg) : List Input := px.map fun p => .command (encode (.pix p))

@[simp] theorem pixInputs_nil : pixInputs [] = [] := rfl

@[simp] theorem pixInputs_cons (p : Arg) (px : List Arg) :
    pixInputs (p :: px) = .command (encode (.pix p)) :: pixInputs px := rfl

@[simp] theorem pixInputs_append (px qx : List Arg) : pixInputs (px ++ qx) = pixInputs px ++ pixInputs qx :=
  List.map_append

/-- An image's commands are SETW, SETH, BEGIN and its pixels (43 R153, R154). -/
theorem imageInputs_eq (W H : Dim) (px : List Arg) :
    imageInputs W H px = .command (encode (.setw W)) :: .command (encode (.seth H)) :: .command (encode .begin) ::
      pixInputs px := by
  simp [imageInputs, imageOps, pixInputs]

/-- The state in which an image's BEGIN is performed: SETW and SETH have set the dimensions, and `l` is still to
come. -/
def State.sized (s : State) (W H : Dim) (l : List Input) : State := ((s.setWidth W).setHeight H).setInputs l

/-- The first three steps of an image, in either mode. -/
theorem run_image_begin {px : List Arg} {rest : List Input} (hs : s.state = .idle)
    (hin : s.inputs = imageInputs W H px ++ rest) (k : Nat) :
    core.run (3 + k) s = core.run k (s.sized W H (pixInputs px ++ rest)).beginImage := by
  rw [imageInputs_eq] at hin
  rw [Nat.add_comm 3]
  calc core.run (k + 3) s
    _ = core.run (k + 2) ((s.setInputs _).setWidth W) := run_op hin (exec_setw_idle W hs)
    _ = core.run (k + 1) (((s.setInputs _).setWidth W).setHeight H) := run_op rfl (exec_seth_idle H hs)
    _ = core.run k _ := run_op rfl (exec_begin_idle hs)

/-! ### Where an image stands, in either mode (43 R148, R149) -/

/-- The image of `W` by `H` pixels of which `k` have been accepted: the position in raster order, and STATE and RESULT,
which change when the last pixel is accepted. -/
structure RasterAt (W H : Dim) (k : Nat) (t : State) : Prop where
  width : t.width = W
  height : t.height = H
  x : t.x.toNat = k % W.toNat
  y : t.y.toNat = k / W.toNat
  status : (k < W.toNat * H.toNat ∧ t.state = .active ∧ t.result = .none) ∨
    (k = W.toNat * H.toNat ∧ t.state = .idle ∧ t.result = .done)

/-- `advance()` moves to the next pixel in raster order. -/
theorem State.advanced_raster (hx : s.x < s.width) (hy : s.y < s.height) :
    s.advanced.x.toNat = (s.y.toNat * s.width.toNat + s.x.toNat + 1) % s.width.toNat ∧
    s.advanced.y.toNat = (s.y.toNat * s.width.toNat + s.x.toNat + 1) / s.width.toNat := by
  obtain ⟨ex, ey⟩ := s.advanced_position
  rw [ex, ey]
  by_cases hcol : s.x.toNat + 1 < s.width.toNat
  · rw [if_pos hcol, if_pos hcol, toNat_add_one_of_lt hx, Nat.add_assoc, Nat.mul_comm]
    exact ⟨by rw [Nat.mul_add_mod, Nat.mod_eq_of_lt hcol],
      by rw [Nat.mul_add_div (by omega), Nat.div_eq_of_lt hcol, Nat.add_zero]⟩
  · have hw : s.x.toNat + 1 = s.width.toNat := by
      rw [BitVec.lt_def] at hx
      omega
    rw [if_neg hcol, if_neg hcol, toNat_add_one_of_lt hy, Nat.add_assoc, hw, ← Nat.add_one_mul]
    exact ⟨(Nat.mul_mod_left _ _).symm, (Nat.mul_div_cancel _ (by omega)).symm⟩

/-- `advance()` completes the image exactly when the pixels accepted are all of its pixels (43 R149). -/
theorem State.advanced_status (hs : s.state = .active) (hx : s.x < s.width) (hy : s.y < s.height) :
    (s.y.toNat * s.width.toNat + s.x.toNat + 1 < s.width.toNat * s.height.toNat ∧
      s.advanced.state = .active ∧ s.advanced.result = s.result) ∨
    (s.y.toNat * s.width.toNat + s.x.toNat + 1 = s.width.toNat * s.height.toNat ∧
      s.advanced.state = .idle ∧ s.advanced.result = .done) := by
  rw [BitVec.lt_def] at hx hy
  rw [Nat.mul_comm s.width.toNat]
  have hrow : (s.y.toNat + 1) * s.width.toNat = s.y.toNat * s.width.toNat + s.width.toNat := Nat.add_one_mul _ _
  rcases s.advanced_cases with ⟨hcol, e⟩ | ⟨hcol, hlast, e⟩ | ⟨hcol, hlast, e⟩
  · have hrows : (s.y.toNat + 1) * s.width.toNat ≤ s.height.toNat * s.width.toNat := Nat.mul_le_mul_right _ hy
    exact .inl ⟨by omega, by simp [e, hs], by simp [e]⟩
  · have hrows : (s.y.toNat + 1) * s.width.toNat < s.height.toNat * s.width.toNat :=
      Nat.mul_lt_mul_of_pos_right (by omega) (by omega)
    exact .inl ⟨by omega, by simp [e, hs], by simp [e]⟩
  · have hrows : (s.y.toNat + 1) * s.width.toNat = s.height.toNat * s.width.toNat := by rw [hlast]
    exact .inr ⟨by omega, by simp [e], by simp [e]⟩

namespace RasterAt

variable {k : Nat}

/-- A BEGIN that is not skipped is at the first pixel, or, of an image of zero area, past the last. -/
theorem beginImage (hskip : ¬ (s.mode = .mono ∧ s.width.toNat % 8 ≠ 0)) (hs : s.state = .idle) :
    RasterAt s.width s.height 0 s.beginImage := by
  by_cases hz : s.width = 0 ∨ s.height = 0
  · have harea : 0 = s.width.toNat * s.height.toNat := by
      rcases hz with h | h <;> simp [h]
    rw [State.beginImage_of_zeroArea hskip hz]
    exact ⟨rfl, rfl, by simp, by simp, .inr ⟨harea, hs, rfl⟩⟩
  · have hwidth : 0 < s.width.toNat := by bv_omega
    have hheight : 0 < s.height.toNat := by bv_omega
    rw [State.beginImage_of_starts hskip hz]
    exact ⟨rfl, rfl, by simp, by simp, .inl ⟨Nat.mul_pos hwidth hheight, rfl, rfl⟩⟩

variable (h : RasterAt W H k t)
include h

theorem setInputs (l : List Input) : RasterAt W H k (t.setInputs l) := { h with }

theorem writeOb (a : Nat) (v : Byte) : RasterAt W H k (t.writeOb a v) := { h with }

/-- The position, counted in raster order, is the number of accepted pixels. -/
theorem index : t.y.toNat * t.width.toNat + t.x.toNat = k := by
  rw [h.x, h.y, h.width, Nat.div_add_mod']

/-- Past the last pixel the position is `(0, H)`, or `(0, 0)` where there was none. -/
theorem position_of_end (hk : k = W.toNat * H.toNat) :
    t.x = 0 ∧ t.y = if W.toNat * H.toNat = 0 then 0 else H := by
  have hx := h.x
  have hy := h.y
  rw [hk, Nat.mul_mod_right] at hx
  refine ⟨BitVec.eq_of_toNat_eq hx, BitVec.eq_of_toNat_eq ?_⟩
  rw [hy, hk]
  split
  · simp [*]
  · rename_i hne
    exact Nat.mul_div_cancel_left _ (Nat.pos_of_ne_zero (Nat.ne_zero_of_mul_ne_zero_left hne))

theorem done_of_end (hk : k = W.toNat * H.toNat) : t.state = .idle ∧ t.result = .done := by
  rcases h.status with ⟨hlt, -⟩ | ⟨-, hdone⟩
  · omega
  · exact hdone

variable (hk : k < W.toNat * H.toNat)
include hk

theorem active_of_lt : t.state = .active ∧ t.result = .none := by
  rcases h.status with ⟨-, hactive⟩ | ⟨heq, -⟩
  · exact hactive
  · omega

/-- The next pixel lies in the image. -/
theorem in_image : t.x < t.width ∧ t.y < t.height := by
  have hw : 0 < W.toNat := Nat.pos_of_mul_pos_right (Nat.zero_lt_of_lt hk)
  rw [BitVec.lt_def, BitVec.lt_def, h.x, h.y, h.width, h.height]
  exact ⟨Nat.mod_lt _ hw, Nat.div_lt_of_lt_mul hk⟩

/-- `advance()` accepts one more pixel. -/
theorem advanced : RasterAt W H (k + 1) t.advanced := by
  obtain ⟨hx, hy⟩ := h.in_image hk
  obtain ⟨hactive, hresult⟩ := h.active_of_lt hk
  obtain ⟨ex, ey⟩ := State.advanced_raster hx hy
  have hstatus := State.advanced_status hactive hx hy
  rw [h.index, h.width] at ex ey hstatus
  rw [h.height, hresult] at hstatus
  exact ⟨by simp [State.advanced_frame, h.width], by simp [State.advanced_frame, h.height], ex, ey, hstatus⟩

end RasterAt

/-! ### What `encode332` answers (41 R116) -/

/-- The mux accepts each of the pixels `px`, and these are its bytes (40 R101). -/
abbrev AcceptedAs (maskEn : Bool) (mask : Byte) : List Arg → List Byte → Prop :=
  List.Forall₂ fun p b => select332 p maskEn mask = .byte b

variable {maskEn : Bool} {mask : Byte}

/-- The loop of `encode332` from index `i` on, with room for its pixels: it stores the bytes of all of them, or
it stops at the first one that the mux turns down. -/
theorem encode332From_cases (px : List Arg) (i : Nat) (bytes : List Byte) (hlen : bytes.length = i + px.length) :
    (∃ bs, AcceptedAs maskEn mask px bs ∧
      encode332From maskEn mask i bytes px = .ok (bytes.take i ++ bs)) ∨
    (∃ qx q rx bs c, px = qx ++ q :: rx ∧ AcceptedAs maskEn mask qx bs ∧ select332 q maskEn mask = .cause c ∧
      encode332From maskEn mask i bytes px = .fatal c (i + qx.length) q) := by
  induction px generalizing i bytes with
  | nil =>
    refine .inl ⟨[], .nil, ?_⟩
    simp only [List.length_nil, Nat.add_zero] at hlen
    simp [encode332From, ← hlen]
  | cons p ps ih =>
    rw [List.length_cons] at hlen
    unfold encode332From
    cases hsel : select332 p maskEn mask with
    | cause c => exact .inr ⟨[], p, ps, [], c, rfl, .nil, hsel, rfl⟩
    | byte y =>
      rcases ih (i + 1) (bytes.set i y) (by rw [List.length_set]; omega) with
        ⟨bs, hbs, e⟩ | ⟨qx, q, rx, bs, c, rfl, hbs, hq, e⟩
      · have htake : (bytes.set i y).take (i + 1) = bytes.take i ++ [y] := by
          rw [List.take_add_one, List.take_set_of_le (Nat.le_refl i)]
          simp [show i < bytes.length by omega]
        exact .inl ⟨y :: bs, .cons hsel hbs, by simp only [e, htake, List.append_assoc, List.singleton_append]⟩
      · refine .inr ⟨p :: qx, q, rx, y :: bs, c, rfl, .cons hsel hbs, hq, ?_⟩
        simp only [e, List.length_cons]
        rw [Nat.add_assoc, Nat.add_comm 1]

/-- `encode332` on as many pixels as the image has. -/
theorem encode332_cases {W H : Nat} {px : List Arg} (hlen : px.length = W * H) :
    (∃ bs, AcceptedAs maskEn mask px bs ∧ encode332 W H px maskEn mask = .ok bs) ∨
    (∃ qx q rx bs c, px = qx ++ q :: rx ∧ AcceptedAs maskEn mask qx bs ∧ select332 q maskEn mask = .cause c ∧
      encode332 W H px maskEn mask = .fatal c qx.length q) := by
  have hcases := encode332From_cases (maskEn := maskEn) (mask := mask) px 0 (List.replicate (W * H) 0)
    (by rw [List.length_replicate, hlen, Nat.zero_add])
  simpa only [encode332, ← hlen, List.take_length, List.take_zero, List.nil_append, Nat.zero_add] using hcases

/-! ### An image in RGB332 mode (41 R117) -/

/-- The image in RGB332 mode of which the bytes `bytes` have been stored, one for each accepted pixel; the rest of OB
is 0. -/
structure Rgb332At (W H : Dim) (maskEn : Bool) (mask : Byte) (bytes : List Byte) (t : State) : Prop
    extends RasterAt W H bytes.length t where
  mode : t.mode = .rgb332
  maskEn : t.maskEn = maskEn
  mask : t.mask = mask
  obSize : t.obSize = some (W.toNat * H.toNat)
  ob_wf : Memory.wf t.ob
  read : ∀ j, Memory.read t.ob j = bytes.getD j 0

/-- BEGIN in RGB332 mode: no byte has been stored. -/
theorem Rgb332At.beginImage (hs : s.state = .idle) (hm : s.mode = .rgb332) :
    Rgb332At s.width s.height s.maskEn s.mask [] s.beginImage := by
  have hskip : ¬ (s.mode = .mono ∧ s.width.toNat % 8 ≠ 0) := by simp [hm]
  obtain ⟨hsize, hob⟩ := State.beginImage_ob hskip
  obtain ⟨hmode, hmaskEn, hmask, -⟩ := Proofs.beginFrame s s.beginImage (exec_begin_idle hs)
  exact { RasterAt.beginImage hskip hs with
    mode := hmode.trans hm
    maskEn := hmaskEn
    mask := hmask
    obSize := by simp only [hsize, State.nbytes, hm]
    ob_wf := hob ▸ Memory.wf_nil
    read := fun j => by simp [hob] }

namespace Rgb332At

variable {bytes : List Byte} (h : Rgb332At W H maskEn mask bytes t)
include h

theorem setInputs (l : List Input) : Rgb332At W H maskEn mask bytes (t.setInputs l) :=
  { h with toRasterAt := h.toRasterAt.setInputs l }

/-- The next byte's index is the number of bytes stored. -/
theorem oaddr : t.oaddr = bytes.length := by
  simp only [State.oaddr, h.mode]
  exact h.index

theorem obByte_of_lt {j : Nat} (hj : j < W.toNat * H.toNat) : t.obByte j = some (bytes.getD j 0) := by
  simp only [State.obByte, h.obSize, h.read]
  exact if_pos hj

/-- When every byte has been stored, they are all of OB. -/
theorem obBytes_of_end (hk : bytes.length = W.toNat * H.toNat) : t.obBytes = some bytes := by
  rw [State.obBytes, h.obSize, Option.map_some, Option.some.injEq]
  apply List.ext_getElem
  · simp [hk]
  · intro j _ hj
    simp [h.read, hj]

variable (hk : bytes.length < W.toNat * H.toNat) {p : Arg}
include hk

/-- A PIX that the mux accepts stores one more byte. -/
theorem exec_accepted {b : Byte} (hb : select332 p maskEn mask = .byte b) :
    ∃ u, exec (.pix p) t = .next u ∧ u.inputs = t.inputs ∧ Rgb332At W H maskEn mask (bytes ++ [b]) u := by
  obtain ⟨hactive, -⟩ := h.active_of_lt hk
  have hstore : ∃ n, t.obSize = some n ∧ t.oaddr < n := ⟨_, h.obSize, by rw [h.oaddr]; exact hk⟩
  refine ⟨(t.writeOb t.oaddr b).advanced, ?_, by simp [State.advanced_frame], ?_⟩
  · rw [exec_pix_rgb332 p hactive h.mode]
    exact pixRgb332_eq_next.2 (.inr ⟨b, by rw [h.maskEn, h.mask]; exact hb, hstore, h.in_image hk, rfl⟩)
  · have hraster := (h.writeOb t.oaddr b).advanced hk
    exact {
      toRasterAt := by simpa using hraster
      mode := by simp [State.advanced_frame, h.mode]
      maskEn := by simp [State.advanced_frame, h.maskEn]
      mask := by simp [State.advanced_frame, h.mask]
      obSize := by simp [State.advanced_frame, h.obSize]
      ob_wf := by
        simp only [State.advanced_frame]
        exact Memory.write_wf h.ob_wf _ _
      read := fun j => by
        simp only [State.advanced_frame, State.writeOb_ob, h.oaddr]
        by_cases hj : j = bytes.length
        · subst hj
          simp [Memory.read_write_same h.ob_wf]
        · rw [Memory.read_write_other _ hj, h.read]
          by_cases hlt : j < bytes.length
          · rw [List.getD_append _ _ _ _ hlt]
          · rw [List.getD_eq_default _ _ (by omega), List.getD_eq_default _ _ (by simp; omega)] }

/-- A PIX that the mux turns down enters FAULT with the mux's cause. -/
theorem exec_turned_down {c : Cause} (hc : select332 p maskEn mask = .cause c) :
    exec (.pix p) t = .next (t.enterFault c 0x05 p) := by
  obtain ⟨hactive, -⟩ := h.active_of_lt hk
  exact exec_pix_of_cause hactive h.mode (by rw [h.maskEn, h.mask]; exact hc)

end Rgb332At

/-- The run over pixels that the mux accepts stores their bytes, one after the other. -/
theorem run_accepted {px : List Arg} {bs : List Byte} (hacc : AcceptedAs maskEn mask px bs) {bytes : List Byte}
    {l : List Input} (h : Rgb332At W H maskEn mask bytes t) (hin : t.inputs = pixInputs px ++ l)
    (hroom : bytes.length + px.length ≤ W.toNat * H.toNat) :
    ∃ u, (∀ k, core.run (px.length + k) t = core.run k u) ∧ u.inputs = l ∧
      Rgb332At W H maskEn mask (bytes ++ bs) u := by
  induction hacc generalizing bytes t with
  | nil => exact ⟨t, fun k => by rw [List.length_nil, Nat.zero_add], hin, by rwa [List.append_nil]⟩
  | @cons p b ps bs hb hbs ih =>
    rw [List.length_cons] at hroom
    obtain ⟨v, hv, hvin, hat⟩ := (h.setInputs (pixInputs ps ++ l)).exec_accepted (by omega) hb
    obtain ⟨u, hrun, huin, hu⟩ := ih hat hvin (by simp; omega)
    refine ⟨u, fun k => ?_, huin, by simpa using hu⟩
    rw [List.length_cons, Nat.add_right_comm, run_op hin hv, hrun]

/-- The commands of an image in RGB332 mode, up to the last of its first pixels `px`, which the mux accepts. -/
theorem run_image_accepted {px qx : List Arg} {bs : List Byte} {rest : List Input} (hs : s.state = .idle)
    (hm : s.mode = .rgb332) (hin : s.inputs = imageInputs W H (px ++ qx) ++ rest)
    (hroom : px.length ≤ W.toNat * H.toNat) (hacc : AcceptedAs s.maskEn s.mask px bs) :
    ∃ u, (∀ k, core.run (3 + (px.length + k)) s = core.run k u) ∧ u.inputs = pixInputs qx ++ rest ∧
      Rgb332At W H s.maskEn s.mask bs u := by
  have hat : Rgb332At W H s.maskEn s.mask [] (s.sized W H (pixInputs (px ++ qx) ++ rest)).beginImage :=
    Rgb332At.beginImage (s := s.sized W H _) hs hm
  have hvin : (s.sized W H (pixInputs (px ++ qx) ++ rest)).beginImage.inputs =
      pixInputs px ++ (pixInputs qx ++ rest) := by
    obtain ⟨-, -, -, -, -, hinputs, -⟩ := Proofs.beginFrame (s.sized W H _) _ (exec_begin_idle hs)
    rw [hinputs, ← List.append_assoc, ← pixInputs_append]
    rfl
  obtain ⟨u, hrun, huin, hu⟩ := run_accepted hacc hat hvin (by simpa using hroom)
  refine ⟨u, fun k => ?_, huin, hu⟩
  rw [run_image_begin hs hin, hrun]

end Sys2Proof.Machine

namespace Sys2Proof.Proofs

open Sys2Proof.Machine

/-- Settles O59: after BEGIN the run stores the bytes of the accepted pixels one after the other
(`run_image_accepted`); these are all of the image, or the next pixel is the first one turned down, as
`encode332_cases` has it. -/
theorem rgb332ImageRefinesEncode : Obligations.Rgb332ImageRefinesEncode := by
  intro s W H px rest hs hm hlen hin
  rcases encode332_cases (maskEn := s.maskEn) (mask := s.mask) hlen with
    ⟨bs, hacc, e⟩ | ⟨qx, q, rx, bs, c, rfl, hacc, hq, e⟩ <;> rw [e] <;> dsimp only
  · obtain ⟨u, hrun, huin, hu⟩ :=
      run_image_accepted (qx := []) (rest := rest) hs hm (by rw [List.append_nil, hin]) hlen.le hacc
    have hend : bs.length = W.toNat * H.toNat := hacc.length_eq.symm.trans hlen
    obtain ⟨hidle, hdone⟩ := hu.done_of_end hend
    obtain ⟨hx, hy⟩ := hu.position_of_end hend
    exact ⟨u, hrun 0, hidle, hdone, hx, hy, hu.obBytes_of_end hend, huin⟩
  · have hlt : qx.length < W.toNat * H.toNat := by
      rw [← hlen]
      simp
    obtain ⟨u, hrun, huin, hu⟩ := run_image_accepted hs hm hin hlt.le hacc
    have hbs : qx.length = bs.length := hacc.length_eq
    rw [hbs] at hlt hrun ⊢
    have hfault := (hu.setInputs (pixInputs rx ++ rest)).exec_turned_down hlt hq
    refine ⟨_, (hrun 1).trans (run_op huin hfault), by simp [← hbs], rfl, rfl, rfl, rfl, hu.x, hu.y,
      (hu.active_of_lt hlt).2, fun j hj => ?_, fun j hj hjn => ?_, fun w l => step_of_fault rfl rfl⟩
    · have hjq : j < qx.length := hbs ▸ hj
      have hpx : (qx ++ q :: rx)[j]? = some qx[j] := by
        rw [List.getElem?_append_left hjq, List.getElem?_eq_getElem hjq]
      refine ⟨qx[j], bs[j], hpx, hacc.get hjq hj, (hu.obByte_of_lt (hj.trans hlt)).trans ?_⟩
      rw [List.getD_eq_getElem _ _ hj]
    · refine (hu.obByte_of_lt hjn).trans ?_
      rw [List.getD_eq_default _ _ hj]

/-- Settles O28: the mux gives the mask byte, and the PIX stores it. -/
theorem transparentStoresMask : Obligations.TransparentStoresMask := by
  intro p s hi hs hm hen ha
  have hb : select332 p s.maskEn s.mask = .byte s.mask := by
    rw [select332_of_transparent ha, if_pos hen]
  obtain ⟨hread, hstate⟩ := hi.writeOb_advanced hs s.mask
  exact ⟨_, hi.exec_pix_of_byte hs hm hb, hread, hstate, by simp [State.advanced_frame]⟩

/-- Settles O29: the mux gives the combined codes, whatever the mask, and the PIX stores them. -/
theorem supportedPixelStoresItsCode : Obligations.SupportedPixelStoresItsCode := by
  intro p s cr cg cb hi hs hm ha hr hg hbl
  obtain ⟨-, -, -, hsupported⟩ := lookupClasses p
  obtain ⟨hcombine, -⟩ := combineFields cr cg cb
  have hb := select332_of_supported ((hsupported _).2 ⟨ha, cr, cg, cb, hr, hg, hbl, hcombine.symm⟩)
  have h := hi.exec_pix_of_byte hs hm (hb s.maskEn s.mask)
  obtain ⟨hread, hstate⟩ := hi.writeOb_advanced hs (cr ++ cg ++ cb)
  obtain ⟨-, hmaskEn, hmask, -, -, -, -, -, hfaultRegs, -, -, hothers, -⟩ := pixFrame p s _ h
  exact ⟨_, h, hread, hothers, hmaskEn, hmask, hstate, hfaultRegs (.inl hstate)⟩

/-- Settles O30: only the transparent arm of the mux reads the mask. -/
theorem maskNeverRescues : Obligations.MaskNeverRescues := by
  refine ⟨fun p e e' m m' ha => ?_, fun s hs hm _ => ⟨?_, ?_⟩⟩
  · cases h : lookup p with
    | transparent =>
      obtain ⟨htransparent, -⟩ := lookupClasses p
      exact absurd (htransparent.1 h) ha
    | unsupported r => rw [select332_of_unsupported h, select332_of_unsupported h]
    | supported y => rw [select332_of_supported h, select332_of_supported h]
  · have hclass : lookup (pack ⟨0, 0, 0, 1⟩) = .unsupported .partialTransparency := by decide
    exact exec_pix_of_cause hs hm (select332_of_unsupported hclass _ _)
  · have hclass : lookup (pack ⟨1, 0, 0, 255⟩) = .unsupported .unsupportedChannel := by decide
    exact exec_pix_of_cause hs hm (select332_of_unsupported hclass _ _)

/-- Settles O34: neither the mux, the store nor `advance()` reads or writes ACC. -/
theorem rgb332IgnoresAcc : Obligations.Rgb332IgnoresAcc := by
  intro p s t v hm h
  obtain ⟨-, -, -, -, -, -, -, hacc, -⟩ := pixFrame p s t h
  exact ⟨hacc hm, exec_pix_setAcc hm h v⟩

/-- Settles O25: with no mask the transparent arm of the mux is a fault. -/
theorem transparentNoMaskFaults : Obligations.TransparentNoMaskFaults := by
  refine ⟨rfl, fun p s hs hm ha hen => exec_pix_of_cause hs hm ?_⟩
  rw [select332_of_transparent ha, hen]
  rfl

end Sys2Proof.Proofs
end

section
/-! The family 42_mono_packer.md: the verdict on a pixel (rule R126), one PIX in MONO mode (R125, R131), the bytes that
pixels pack into (R127 to R129), what `encodeMono` answers (R132), and the run of an image in MONO mode against it
(R133). -/

namespace Sys2Proof.Machine

variable {s t : State} {W H : Dim}

/-! ### The verdict and the bit of a pixel (42 R126, R127) -/

theorem pureBlack_ne_pureWhite : pureBlack ≠ pureWhite := by decide

/-- The packer gives a bit for its own word alone. -/
theorem monoBit_eq_bit_iff {p : Arg} {v : Bool} :
    monoBit p = .bit v ↔ p = if v then pureWhite else pureBlack := by
  unfold monoBit
  by_cases hb : p = pureBlack
  · subst hb
    cases v <;> simp [pureBlack_ne_pureWhite]
  · by_cases hw : p = pureWhite <;> cases v <;> simp [hb, hw, pureBlack_ne_pureWhite.symm]

/-- Every word but the two is invalid. -/
theorem monoBit_eq_invalid_iff {p : Arg} : monoBit p = .invalid ↔ p ≠ pureBlack ∧ p ≠ pureWhite := by
  unfold monoBit
  by_cases hb : p = pureBlack
  · simp [hb]
  · by_cases hw : p = pureWhite <;> simp [hb, hw, pureBlack_ne_pureWhite.symm]

/-- `laneBit` as a shifted 0 or 1. -/
theorem laneBit_eq_cast (v : Bool) (k : Nat) : laneBit v k = ((if v then 1 else 0) <<< (7 - k) : Nat) := by
  have small : ∀ v, ∀ n < 8, (BitVec.ofBool v).setWidth 8 <<< n = (((if v then 1 else 0) <<< n : Nat) : Byte) := by
    decide
  exact small v (7 - k) (by omega)

/-- Two columns of a run have no bit in common. -/
theorem laneBit_and_laneBit (v w : Bool) {j k : Nat} (hk : k < 8) (hjk : j < k) : laneBit v j &&& laneBit w k = 0 := by
  have small : ∀ v w, ∀ k < 8, ∀ j < k, laneBit v j &&& laneBit w k = 0 := by decide
  exact small v w k hk j hjk

/-! ### One PIX in MONO mode (42 R125, R131) -/

/-- A PIX that the packer turns down enters FAULT with cause 4 (60 R174). -/
theorem exec_pix_of_invalid {p : Arg} (hs : s.state = .active) (hm : s.mode = .mono) (hp : monoBit p = .invalid) :
    exec (.pix p) s = .next (s.enterFault .invalidMonoPixel 0x05 p) := by
  rw [exec_pix_mono p hs hm]
  exact pixMono_eq_next.2 (.inl ⟨hp, rfl⟩)

/-- A PIX before the eighth of its run gathers its bit. -/
theorem exec_pix_gathers {p : Arg} {v : Bool} (hs : s.state = .active) (hm : s.mode = .mono)
    (hp : monoBit p = .bit v) (h7 : s.x.toNat % 8 ≠ 7) (hxy : s.x < s.width ∧ s.y < s.height) :
    exec (.pix p) s = .next (s.setAcc (s.acc ||| laneBit v (s.x.toNat % 8))).advanced := by
  rw [exec_pix_mono p hs hm]
  exact pixMono_eq_next.2 (.inr (.inl ⟨v, hp, h7, hxy, rfl⟩))

/-- A PIX that is the eighth of its run stores the byte. -/
theorem exec_pix_stores {p : Arg} {v : Bool} (hs : s.state = .active) (hm : s.mode = .mono)
    (hp : monoBit p = .bit v) (h7 : s.x.toNat % 8 = 7) (hxy : s.x < s.width ∧ s.y < s.height)
    (hn : ∃ n, s.obSize = some n ∧ s.oaddr < n) :
    exec (.pix p) s = .next ((s.writeOb s.oaddr (s.acc ||| laneBit v 7)).setAcc 0).advanced := by
  rw [exec_pix_mono p hs hm]
  exact pixMono_eq_next.2 (.inr (.inr ⟨v, hp, h7, hn, hxy, rfl⟩))

theorem State.advanced_configure (s : State) (m : Mode) (e : Bool) (k : Byte) :
    (s.configure m e k).advanced = s.advanced.configure m e k := by
  simp only [State.advanced, apply_ite (State.configure · m e k)]
  rfl

/-- PIX in MONO mode does the same whatever the mask registers hold (42 R131). -/
theorem exec_pix_configure_mask {p : Arg} (hm : s.mode = .mono) (h : exec (.pix p) s = .next t) (e : Bool) (k : Byte) :
    exec (.pix p) (s.configure s.mode e k) = .next (t.configure s.mode e k) := by
  cases hs : s.state with
  | fault =>
    cases (exec_of_fault _ hs).symm.trans h
    exact exec_of_fault _ hs
  | idle =>
    have hwrong {u : State} (hu : u.state = .idle) : exec (.pix p) u = .next (u.enterFault .protocol 0x05 p) :=
      performIn_wrong (by simp [hu]) (by simp [hu])
    cases (hwrong hs).symm.trans h
    exact hwrong (u := s.configure s.mode e k) hs
  | active =>
    rw [exec_pix_mono p hs hm] at h
    rw [exec_pix_mono (s := s.configure s.mode e k) p hs hm]
    rcases pixMono_eq_next.1 h with ⟨hp, rfl⟩ | ⟨v, hp, h7, hxy, rfl⟩ | ⟨v, hp, h7, hn, hxy, rfl⟩
    · exact pixMono_eq_next.2 (.inl ⟨hp, rfl⟩)
    · exact pixMono_eq_next.2 (.inr (.inl ⟨v, hp, h7, hxy, (State.advanced_configure _ _ e k).symm⟩))
    · exact pixMono_eq_next.2 (.inr (.inr ⟨v, hp, h7, hn, hxy, (State.advanced_configure _ _ e k).symm⟩))

/-! ### The bytes that pixels pack into (42 R127 to R129) -/

/-- One more pixel of a run adds its bit. -/
theorem gatherFrom_concat {p : Arg} {v : Bool} (hp : monoBit p = .bit v) (px : List Arg) (k : Nat) :
    gatherFrom k (px ++ [p]) = gatherFrom k px ||| laneBit v (k + px.length) := by
  have hv : (monoBit p == .bit true) = v := by
    rw [hp]
    cases v <;> rfl
  induction px generalizing k with
  | nil => simp [gatherFrom, hv]
  | cons q px ih => simp [gatherFrom, ih, BitVec.or_assoc, Nat.add_assoc, Nat.add_comm 1]

/-- The pixels of a run have no bit in common with a column past them. -/
theorem gatherFrom_and_laneBit (px : List Arg) {k n : Nat} (v : Bool) (hn : n < 8) (h : k + px.length ≤ n) :
    gatherFrom k px &&& laneBit v n = 0 := by
  induction px generalizing k with
  | nil => simp [gatherFrom]
  | cons q px ih =>
    rw [List.length_cons] at h
    have hfirst := laneBit_and_laneBit (monoBit q == .bit true) v hn (show k < n by omega)
    have hrest := ih (show k + 1 + px.length ≤ n by omega)
    rw [BitVec.and_comm] at hfirst hrest ⊢
    rw [gatherFrom, BitVec.and_or_distrib_left, hfirst, hrest]
    rfl

/-- Byte `j` of an image whose pixels so far are `px`: the bits of those pixels among its eight (42 R128). -/
def packedByte (px : List Arg) (j : Nat) : Byte := gatherFrom 0 ((px.drop (8 * j)).take 8)

/-- No pixel has reached the byte. -/
theorem packedByte_of_length_le {px : List Arg} {j : Nat} (h : px.length ≤ 8 * j) : packedByte px j = 0 := by
  rw [packedByte, List.drop_eq_nil_of_le h]
  rfl

/-- Later pixels do not touch a complete byte. -/
theorem packedByte_append {px : List Arg} {j : Nat} (h : 8 * j + 8 ≤ px.length) (qx : List Arg) :
    packedByte (px ++ qx) j = packedByte px j := by
  rw [packedByte, List.drop_append_of_le_length (by omega), List.take_append_of_le_length (by simp; omega)]
  rfl

/-- The byte under construction holds the pixels past the complete bytes. -/
theorem packedByte_last (px : List Arg) :
    packedByte px (px.length / 8) = gatherFrom 0 (px.drop (8 * (px.length / 8))) := by
  rw [packedByte, List.take_of_length_le (by simp; omega)]

/-- The next pixel's bit is not yet set in its byte. -/
theorem packedByte_and_laneBit (px : List Arg) (v : Bool) :
    packedByte px (px.length / 8) &&& laneBit v (px.length % 8) = 0 := by
  rw [packedByte_last]
  exact gatherFrom_and_laneBit _ v (Nat.mod_lt _ (by decide)) (by simp; omega)

/-- One more pixel adds its bit to the byte under construction. -/
theorem packedByte_concat_same {p : Arg} {v : Bool} (hp : monoBit p = .bit v) (px : List Arg) :
    packedByte (px ++ [p]) (px.length / 8) = packedByte px (px.length / 8) ||| laneBit v (px.length % 8) := by
  have hcolumn : (px.drop (8 * (px.length / 8))).length = px.length % 8 := by
    rw [List.length_drop]
    omega
  rw [packedByte_last, packedByte, List.drop_append_of_le_length (by omega), List.take_of_length_le (by simp; omega),
    gatherFrom_concat hp, hcolumn, Nat.zero_add]

/-- One more pixel leaves the other bytes alone. -/
theorem packedByte_concat_other (px : List Arg) (p : Arg) {j : Nat} (hj : j ≠ px.length / 8) :
    packedByte (px ++ [p]) j = packedByte px j := by
  by_cases hlt : j < px.length / 8
  · exact packedByte_append (by omega) [p]
  · rw [packedByte_of_length_le (by simp; omega), packedByte_of_length_le (by omega)]

/-- The first `n` bytes of such an image. -/
def packedBytes (n : Nat) (px : List Arg) : List Byte := (List.range n).map (packedByte px)

theorem packedBytes_nil (n : Nat) : packedBytes n [] = List.replicate n 0 := by
  have hzero : packedByte [] = fun _ => 0 := funext fun j => packedByte_of_length_le (Nat.zero_le _)
  rw [packedBytes, hzero, List.map_const', List.length_range]

/-- Setting one more pixel's bit by exclusive or, as `encodeMono` does, is packing one more pixel (42 R129). -/
theorem packedBytes_concat {p : Arg} {v : Bool} (hp : monoBit p = .bit v) (n : Nat) (px : List Arg) :
    (packedBytes n px).modify (px.length / 8) (· ^^^ laneBit v (px.length % 8)) = packedBytes n (px ++ [p]) := by
  apply List.ext_getElem
  · simp [packedBytes]
  · intro j hj hj'
    simp only [packedBytes, List.getElem_modify, List.getElem_map, List.getElem_range]
    split
    · subst j
      rw [packedByte_concat_same hp, xor_eq_or_of_and_eq_zero (packedByte_and_laneBit px v)]
    · exact (packedByte_concat_other px p (Ne.symm ‹_›)).symm

/-- In an image of whole bytes, the pixel `k` in raster order lies in the byte `k div 8` (42 R129). -/
theorem packed_index {W : Nat} (h8 : W % 8 = 0) (k : Nat) : k / W * (W / 8) + k % W / 8 = k / 8 := by
  obtain ⟨m, rfl⟩ := Nat.dvd_of_mod_eq_zero h8
  conv_rhs => rw [← Nat.div_add_mod k (8 * m), Nat.mul_assoc, Nat.mul_add_div (by decide)]
  rw [Nat.mul_div_cancel_left _ (by decide), Nat.mul_comm]

/-! ### What `encodeMono` answers (42 R132) -/

/-- The packer accepts each of the pixels. -/
abbrev AllAccepted (px : List Arg) : Prop := ∀ p ∈ px, ∃ v, monoBit p = .bit v

/-- The loop of `encodeMono` behind the pixels `px`, over the pixels `qx`: it packs all of them, or it stops at the
first one that the packer turns down. -/
theorem encodeMonoFrom_cases {W : Nat} (h8 : W % 8 = 0) (n : Nat) (px qx : List Arg) :
    (AllAccepted qx ∧ encodeMonoFrom W px.length (packedBytes n px) qx = .ok (packedBytes n (px ++ qx))) ∨
    (∃ ax q rx, qx = ax ++ q :: rx ∧ AllAccepted ax ∧ monoBit q = .invalid ∧
      encodeMonoFrom W px.length (packedBytes n px) qx = .fatal .invalidMonoPixel (px.length + ax.length) q) := by
  induction qx generalizing px with
  | nil => exact .inl ⟨List.forall_mem_nil _, by rw [List.append_nil]; rfl⟩
  | cons p qx ih =>
    cases hp : monoBit p with
    | invalid => exact .inr ⟨[], p, qx, rfl, List.forall_mem_nil _, hp, by simp [encodeMonoFrom, hp]⟩
    | bit v =>
      have hloop : encodeMonoFrom W px.length (packedBytes n px) (p :: qx) =
          encodeMonoFrom W (px ++ [p]).length (packedBytes n (px ++ [p])) qx := by
        rw [encodeMonoFrom, hp]
        dsimp only
        rw [packed_index h8, Nat.mod_mod_of_dvd _ (Nat.dvd_of_mod_eq_zero h8), packedBytes_concat hp,
          List.length_append, List.length_singleton]
      rw [hloop]
      rcases ih (px ++ [p]) with ⟨hall, e⟩ | ⟨ax, q, rx, rfl, hall, hq, e⟩
      · exact .inl ⟨List.forall_mem_cons.2 ⟨⟨v, hp⟩, hall⟩, by rw [e, List.append_assoc, List.singleton_append]⟩
      · refine .inr ⟨p :: ax, q, rx, rfl, List.forall_mem_cons.2 ⟨⟨v, hp⟩, hall⟩, hq, ?_⟩
        rw [e, List.length_append, List.length_singleton, List.length_cons, Nat.add_assoc, Nat.add_comm 1]

/-- `encodeMono` on as many pixels as the image has. -/
theorem encodeMono_cases {W H : Nat} {px : List Arg} (hlen : px.length = W * H) :
    (W % 8 ≠ 0 ∧ encodeMono W H px = .skipped) ∨
    (W % 8 = 0 ∧ AllAccepted px ∧ encodeMono W H px = .ok (packedBytes (W / 8 * H) px)) ∨
    (W % 8 = 0 ∧ ∃ qx q rx, px = qx ++ q :: rx ∧ AllAccepted qx ∧ monoBit q = .invalid ∧
      encodeMono W H px = .fatal .invalidMonoPixel qx.length q) := by
  by_cases h8 : W % 8 = 0
  · have e : encodeMono W H px = encodeMonoFrom W 0 (packedBytes (W / 8 * H) []) px := by
      rw [encodeMono, if_neg (not_not_intro h8), packedBytes_nil, ← hlen, List.take_length]
    have hcases := encodeMonoFrom_cases h8 (W / 8 * H) [] px
    simp only [List.length_nil, List.nil_append, Nat.zero_add, ← e] at hcases
    exact .inr (hcases.imp (⟨h8, ·⟩) (⟨h8, ·⟩))
  · exact .inl ⟨h8, if_pos h8⟩

/-! ### An image in MONO mode (42 R133) -/

/-- Where an image stands does not depend on ACC. -/
theorem RasterAt.setAcc {k : Nat} (h : RasterAt W H k t) (v : Byte) : RasterAt W H k (t.setAcc v) := { h with }

/-- The image in MONO mode of which the pixels `px` have been accepted: ACC holds the byte under construction, OB the
bytes before it; the rest of OB is 0. -/
structure MonoAt (W H : Dim) (px : List Arg) (t : State) : Prop extends RasterAt W H px.length t where
  mode : t.mode = .mono
  width_mod : W.toNat % 8 = 0
  acc : t.acc = packedByte px (px.length / 8)
  obSize : t.obSize = some (W.toNat / 8 * H.toNat)
  ob_wf : Memory.wf t.ob
  read : ∀ j, Memory.read t.ob j = if j < px.length / 8 then packedByte px j else 0

/-- BEGIN in IDLE clears ACC (43 R144). -/
theorem State.beginImage_acc (s : State) : s.beginImage.acc = 0 := by
  rcases s.beginImage_cases with ⟨-, -, e⟩ | ⟨-, -, e⟩ | ⟨-, -, -, e⟩ <;> simp [e]

/-- BEGIN in MONO mode with a width of whole bytes: no pixel has been accepted. -/
theorem MonoAt.beginImage (hs : s.state = .idle) (hm : s.mode = .mono) (h8 : s.width.toNat % 8 = 0) :
    MonoAt s.width s.height [] s.beginImage := by
  have hskip : ¬ (s.mode = .mono ∧ s.width.toNat % 8 ≠ 0) := by simp [h8]
  obtain ⟨hsize, hob⟩ := State.beginImage_ob hskip
  obtain ⟨hmode, -⟩ := Proofs.beginFrame s s.beginImage (exec_begin_idle hs)
  exact { RasterAt.beginImage hskip hs with
    mode := hmode.trans hm
    width_mod := h8
    acc := s.beginImage_acc
    obSize := by simp only [hsize, State.nbytes, hm]
    ob_wf := hob ▸ Memory.wf_nil
    read := fun j => by simp [hob] }

namespace MonoAt

variable {px : List Arg} (h : MonoAt W H px t)
include h

theorem setInputs (l : List Input) : MonoAt W H px (t.setInputs l) :=
  { h with toRasterAt := h.toRasterAt.setInputs l }

/-- The next pixel's place in its byte (42 R127). -/
theorem column : t.x.toNat % 8 = px.length % 8 := by
  rw [h.x, Nat.mod_mod_of_dvd _ (Nat.dvd_of_mod_eq_zero h.width_mod)]

/-- The next pixel's byte (42 R129). -/
theorem oaddr : t.oaddr = px.length / 8 := by
  simp only [State.oaddr, h.mode, h.x, h.y, h.width]
  exact packed_index h.width_mod _

theorem obByte_of_lt {j : Nat} (hj : j < W.toNat / 8 * H.toNat) :
    t.obByte j = some (if j < px.length / 8 then packedByte px j else 0) := by
  simp only [State.obByte, h.obSize, h.read]
  exact if_pos hj

/-- An image has eight pixels for each byte. -/
theorem area : W.toNat * H.toNat = 8 * (W.toNat / 8 * H.toNat) := by
  rw [← Nat.mul_assoc, Nat.mul_div_cancel' (Nat.dvd_of_mod_eq_zero h.width_mod)]

/-- When every pixel has been accepted, ACC is empty and OB holds the packed bytes. -/
theorem packed_of_end (hk : px.length = W.toNat * H.toNat) :
    t.acc = 0 ∧ t.obBytes = some (packedBytes (W.toNat / 8 * H.toNat) px) := by
  have hfull : px.length = 8 * (W.toNat / 8 * H.toNat) := hk.trans h.area
  refine ⟨h.acc.trans (packedByte_of_length_le (by omega)), ?_⟩
  rw [State.obBytes, h.obSize, Option.map_some, packedBytes, Option.some.injEq]
  refine List.map_congr_left fun j hj => ?_
  have hj : j < W.toNat / 8 * H.toNat := List.mem_range.1 hj
  rw [h.read, if_pos (by omega)]

variable (hk : px.length < W.toNat * H.toNat) {p : Arg}
include hk

/-- A PIX before the eighth of its run keeps its bit in ACC. -/
theorem gathered {v : Bool} (hp : monoBit p = .bit v) (h7 : px.length % 8 ≠ 7) :
    MonoAt W H (px ++ [p]) (t.setAcc (t.acc ||| laneBit v (t.x.toNat % 8))).advanced := by
  have hraster := (h.setAcc (t.acc ||| laneBit v (t.x.toNat % 8))).advanced hk
  have hbyte : (px ++ [p]).length / 8 = px.length / 8 := by
    rw [List.length_append, List.length_singleton]
    omega
  exact {
    toRasterAt := by simpa using hraster
    mode := by simp [State.advanced_frame, h.mode]
    width_mod := h.width_mod
    acc := by simp only [State.advanced_frame, State.setAcc_acc, h.acc, h.column, hbyte, packedByte_concat_same hp]
    obSize := by simp [State.advanced_frame, h.obSize]
    ob_wf := by
      simp only [State.advanced_frame]
      exact h.ob_wf
    read := fun j => by
      simp only [State.advanced_frame, State.setAcc_ob, h.read, hbyte]
      split
      · exact (packedByte_concat_other px p (by omega)).symm
      · rfl }

/-- A PIX that is the eighth of its run completes its byte in OB and clears ACC. -/
theorem stored {v : Bool} (hp : monoBit p = .bit v) (h7 : px.length % 8 = 7) :
    MonoAt W H (px ++ [p]) ((t.writeOb t.oaddr (t.acc ||| laneBit v 7)).setAcc 0).advanced := by
  have hraster := ((h.writeOb t.oaddr (t.acc ||| laneBit v 7)).setAcc 0).advanced hk
  have hbyte : (px ++ [p]).length / 8 = px.length / 8 + 1 := by
    rw [List.length_append, List.length_singleton]
    omega
  have hcomplete : t.acc ||| laneBit v 7 = packedByte (px ++ [p]) (px.length / 8) := by
    rw [packedByte_concat_same hp, h7, h.acc]
  exact {
    toRasterAt := by simpa using hraster
    mode := by simp [State.advanced_frame, h.mode]
    width_mod := h.width_mod
    acc := by
      rw [hbyte, packedByte_of_length_le (by simp; omega)]
      simp [State.advanced_frame]
    obSize := by simp [State.advanced_frame, h.obSize]
    ob_wf := by
      simp only [State.advanced_frame]
      exact Memory.write_wf h.ob_wf _ _
    read := fun j => by
      simp only [State.advanced_frame, State.setAcc_ob, State.writeOb_ob, h.oaddr, hcomplete, hbyte]
      by_cases hj : j = px.length / 8
      · subst hj
        rw [Memory.read_write_same h.ob_wf, if_pos (Nat.lt_succ_self _)]
      · rw [Memory.read_write_other _ hj, h.read, packedByte_concat_other px p hj]
        exact if_congr (by omega) rfl rfl }

/-- A PIX that the packer accepts. -/
theorem exec_accepted {v : Bool} (hp : monoBit p = .bit v) :
    ∃ u, exec (.pix p) t = .next u ∧ u.inputs = t.inputs ∧ MonoAt W H (px ++ [p]) u := by
  obtain ⟨hactive, -⟩ := h.active_of_lt hk
  by_cases h7 : px.length % 8 = 7
  · have hstore : t.oaddr < W.toNat / 8 * H.toNat := by
      rw [h.area] at hk
      rw [h.oaddr]
      omega
    exact ⟨_, exec_pix_stores hactive h.mode hp (h.column.trans h7) (h.in_image hk) ⟨_, h.obSize, hstore⟩,
      by simp [State.advanced_frame], h.stored hk hp h7⟩
  · exact ⟨_, exec_pix_gathers hactive h.mode hp (by rwa [h.column]) (h.in_image hk), by simp [State.advanced_frame],
      h.gathered hk hp h7⟩

/-- A PIX that the packer turns down enters FAULT with cause 4. -/
theorem exec_turned_down (hp : monoBit p = .invalid) :
    exec (.pix p) t = .next (t.enterFault .invalidMonoPixel 0x05 p) := by
  obtain ⟨hactive, -⟩ := h.active_of_lt hk
  exact exec_pix_of_invalid hactive h.mode hp

end MonoAt

/-- The run over pixels that the packer accepts. -/
theorem run_all_accepted {qx : List Arg} (hall : AllAccepted qx) {px : List Arg} {l : List Input} (h : MonoAt W H px t)
    (hin : t.inputs = pixInputs qx ++ l) (hroom : px.length + qx.length ≤ W.toNat * H.toNat) :
    ∃ u, (∀ k, core.run (qx.length + k) t = core.run k u) ∧ u.inputs = l ∧ MonoAt W H (px ++ qx) u := by
  induction qx generalizing px t with
  | nil => exact ⟨t, fun k => by rw [List.length_nil, Nat.zero_add], hin, by rwa [List.append_nil]⟩
  | cons p qx ih =>
    obtain ⟨⟨v, hp⟩, hall⟩ := List.forall_mem_cons.1 hall
    rw [List.length_cons] at hroom
    obtain ⟨w, hw, hwin, hat⟩ := (h.setInputs (pixInputs qx ++ l)).exec_accepted (by omega) hp
    obtain ⟨u, hrun, huin, hu⟩ := ih hall hat hwin (by simp; omega)
    refine ⟨u, fun k => ?_, huin, by simpa using hu⟩
    rw [List.length_cons, Nat.add_right_comm, run_op hin hw, hrun]

/-- BEGIN leaves the commands still to come. -/
theorem State.sized_beginImage_inputs (hs : s.state = .idle) (l : List Input) :
    (s.sized W H l).beginImage.inputs = l := by
  obtain ⟨-, -, -, -, -, hinputs, -⟩ := Proofs.beginFrame (s.sized W H l) _ (exec_begin_idle hs)
  exact hinputs

/-- The commands of an image of whole bytes in MONO mode, up to the last of its first pixels `px`, which the packer
accepts. -/
theorem run_mono_image_accepted {px qx : List Arg} {rest : List Input} (hs : s.state = .idle) (hm : s.mode = .mono)
    (h8 : W.toNat % 8 = 0) (hin : s.inputs = imageInputs W H (px ++ qx) ++ rest)
    (hroom : px.length ≤ W.toNat * H.toNat) (hall : AllAccepted px) :
    ∃ u, (∀ k, core.run (3 + (px.length + k)) s = core.run k u) ∧ u.inputs = pixInputs qx ++ rest ∧
      MonoAt W H px u := by
  have hat : MonoAt W H [] (s.sized W H (pixInputs (px ++ qx) ++ rest)).beginImage :=
    MonoAt.beginImage (s := s.sized W H _) hs hm h8
  have hvin := State.sized_beginImage_inputs (W := W) (H := H) hs (pixInputs (px ++ qx) ++ rest)
  rw [pixInputs_append, List.append_assoc] at hvin hat
  obtain ⟨u, hrun, huin, hu⟩ := run_all_accepted hall hat hvin (by simpa using hroom)
  refine ⟨u, fun k => ?_, huin, hu⟩
  rw [run_image_begin hs hin, pixInputs_append, List.append_assoc, hrun]

end Sys2Proof.Machine

namespace Sys2Proof.Proofs

open Sys2Proof.Machine

/-- Settles O60: a width that is not of whole bytes is skipped; else the run after BEGIN packs the accepted pixels
(`run_mono_image_accepted`); these are all of the image, or the next pixel is the first one turned down, as
`encodeMono_cases` has it. -/
theorem monoImageRefinesEncode : Obligations.MonoImageRefinesEncode := by
  intro s W H px rest hs hm hlen hin
  rcases encodeMono_cases hlen with ⟨h8, e⟩ | ⟨h8, hall, e⟩ | ⟨h8, qx, q, rx, rfl, hall, hq, e⟩ <;>
    rw [e] <;> dsimp only
  · refine ⟨_, (run_image_begin hs hin 0).trans run_zero, ?_⟩
    rw [State.beginImage_of_skips (s := s.sized W H _) ⟨hm, h8⟩]
    exact ⟨hs, rfl, rfl, rfl⟩
  · obtain ⟨u, hrun, huin, hu⟩ :=
      run_mono_image_accepted (qx := []) (rest := rest) hs hm h8 (by rw [List.append_nil, hin]) hlen.le hall
    obtain ⟨hidle, hdone⟩ := hu.done_of_end hlen
    obtain ⟨hx, hy⟩ := hu.position_of_end hlen
    obtain ⟨hacc, hbytes⟩ := hu.packed_of_end hlen
    exact ⟨u, hrun 0, hidle, hdone, hacc, hx, hy, hbytes, huin⟩
  · have hlt : qx.length < W.toNat * H.toNat := by
      rw [← hlen]
      simp
    obtain ⟨u, hrun, huin, hu⟩ := run_mono_image_accepted hs hm h8 hin hlt.le hall
    have hfault := (hu.setInputs (pixInputs rx ++ rest)).exec_turned_down hlt hq
    refine ⟨_, (hrun 1).trans (run_op huin hfault), by simp, rfl, rfl, rfl, rfl, rfl, hu.x, hu.y,
      (hu.active_of_lt hlt).2, ?_, fun j hj => ?_, fun j hj hjn => ?_, fun w l => step_of_fault rfl rfl⟩
    · rw [List.take_left, ← packedByte_last]
      exact hu.acc
    · have hcomplete : 8 * j + 8 ≤ qx.length := by omega
      rw [hu.area] at hlt
      refine (hu.obByte_of_lt (by omega)).trans ?_
      rw [if_pos hj, ← packedByte_append hcomplete (q :: rx)]
      rfl
    · exact (hu.obByte_of_lt hjn).trans (by rw [if_neg (by omega)])

/-- Settles O32: the fault, the gather and the store each leave the state that `State.enterFault` or
`State.advanced_of_active` writes out. -/
theorem monoPixelStep : Obligations.MonoPixelStep := by
  refine ⟨rfl, fun p s hs hm => ⟨fun hblack hwhite => ?_, fun v hp hx hy => ⟨fun h7 => ?_, fun n h7 hn hlt => ?_⟩⟩⟩
  · exact exec_pix_of_invalid hs hm (monoBit_eq_invalid_iff.2 ⟨hblack, hwhite⟩)
  · rw [exec_pix_gathers hs hm (monoBit_eq_bit_iff.2 hp) h7 ⟨hx, hy⟩, State.advanced_of_active, laneBit_eq_cast]
    · rfl
    · exact hs
  · have haddr : s.oaddr = s.y.toNat * (s.width.toNat / 8) + s.x.toNat / 8 := by simp only [State.oaddr, hm]
    rw [← haddr] at hlt ⊢
    rw [exec_pix_stores hs hm (monoBit_eq_bit_iff.2 hp) h7 ⟨hx, hy⟩ ⟨n, hn, hlt⟩, State.advanced_of_active]
    · cases v <;> rfl
    · exact hs

/-- Settles O33: neither the verdict, ACC, the store nor `advance()` reads or writes the mask registers. -/
theorem monoIgnoresMask : Obligations.MonoIgnoresMask := by
  intro p s t e m hm h
  obtain ⟨hmode, hmaskEn, hmask, -⟩ := pixFrame p s t h
  refine ⟨hmaskEn, hmask, (exec_pix_configure_mask hm h e m).trans ?_⟩
  rw [← hmode]
  rfl

/-- Settles O31: the two tests of `mono_bit` are for different words. -/
theorem monoBitAcceptsTwoWords : Obligations.MonoBitAcceptsTwoWords :=
  fun _ => ⟨monoBit_eq_bit_iff, monoBit_eq_bit_iff, monoBit_eq_invalid_iff⟩

end Sys2Proof.Proofs
end

section
/-! The family 43_control_ops.md: the control operations in each STATE (rules R141 to R146), the commands that a STATE
does not allow (R150, R152), the transitions of STATE (R140) and the last pixel of an image (R149). -/

namespace Sys2Proof.Machine

variable {s t : State}

/-! ### Commands that the STATE does not allow (43 R152) -/

/-- A control operation in ACTIVE raises PROTOCOL. -/
theorem exec_control_active {i : Instr} (hi : ∀ p, i ≠ .pix p) (h : s.state = .active) :
    exec i s = .next (s.enterFault .protocol i.opcode i.arg) := by
  have hwrong (o : Answer) : performIn .idle i s o = .next (s.enterFault .protocol i.opcode i.arg) :=
    performIn_wrong (by simp [h]) (by simp [h])
  cases i with
  | pix p => exact absurd rfl (hi p)
  | _ => exact hwrong _

/-- PIX in IDLE raises PROTOCOL. -/
theorem exec_pix_idle (p : Arg) (h : s.state = .idle) :
    exec (.pix p) s = .next (s.enterFault .protocol 0x05 p) :=
  performIn_wrong (by simp [h]) (by simp [h])

/-! ### BEGIN (43 R144 to R146) -/

/-- An image of zero area has no bytes (43 R145). -/
theorem State.nbytes_of_zeroArea (hz : s.width = 0 ∨ s.height = 0) : s.nbytes = 0 := by
  rw [State.nbytes_eq]
  rcases hz with h | h <;> simp [h]

/-- The width test of BEGIN reads WIDTH[2:0] (43 R146). -/
theorem low_bits_ne_zero_iff (w : Dim) : w.extractLsb' 0 3 ≠ 0 ↔ w.toNat % 8 ≠ 0 := by
  simp [← BitVec.toNat_inj]

/-! ### Transitions of STATE (43 R140) -/

/-- `advance()` changes STATE on the last pixel alone, to IDLE and with RESULT = DONE (43 R149). -/
theorem State.advanced_of_state_ne (h : s.advanced.state ≠ s.state) :
    s.advanced.state = .idle ∧ s.advanced.result = .done ∧
    ¬ s.x.toNat + 1 < s.width.toNat ∧ s.y.toNat + 1 = s.height.toNat := by
  rcases s.advanced_cases with ⟨-, e⟩ | ⟨-, -, e⟩ | ⟨hx, hy, e⟩
  · exact absurd (by simp [e]) h
  · exact absurd (by simp [e]) h
  · exact ⟨by simp [e], by simp [e], hx, hy⟩

/-- The transitions of STATE that an operation makes: BEGIN starts an image, the last PIX completes one, or a fault is
entered (43 R140). -/
def Transition (i : Instr) (s t : State) : Prop :=
  (s.state = .idle ∧ t.state = .active ∧ i = .begin ∧ t.result = .none) ∨
  (s.state = .active ∧ t.state = .idle ∧ (∃ p, i = .pix p) ∧ t.result = .done ∧
    s.x.toNat + 1 = s.width.toNat ∧ s.y.toNat + 1 = s.height.toNat) ∨
  (s.state ≠ .fault ∧ t.state = .fault ∧ t.cause ≠ .none)

theorem Transition.of_enterFault {i : Instr} (hs : s.state ≠ .fault) {c : Cause} (hc : c ≠ .none) (op : Byte)
    (arg : Arg) : Transition i s (s.enterFault c op arg) :=
  .inr (.inr ⟨hs, rfl, hc⟩)

/-- The `advance()` of a PIX, which leaves the image or completes it. -/
theorem Transition.of_advanced {p : Arg} (hs : s.state = .active) (hx : s.x < s.width)
    (hne : s.advanced.state ≠ s.state) : Transition (.pix p) s s.advanced := by
  obtain ⟨hidle, hdone, hcol, hrow⟩ := State.advanced_of_state_ne hne
  rw [BitVec.lt_def] at hx
  exact .inr (.inl ⟨hs, hidle, ⟨p, rfl⟩, hdone, by omega, hrow⟩)

/-- `Transition` reads neither ACC nor OB of the state before, so it is shown of the state that `advance()` meets. -/
theorem exec_pix_transition {p : Arg} (h : exec (.pix p) s = .next t) (hne : t.state ≠ s.state) :
    Transition (.pix p) s t := by
  rcases exec_pix_cases h with ⟨-, rfl⟩ | ⟨hs, rfl⟩ | ⟨hs, -, c, hc, rfl⟩ |
    ⟨hs, ⟨hx, -⟩, -, v, acc, -, -, rfl⟩ | ⟨hs, ⟨hx, -⟩, -, -, -, v, -, rfl⟩
  · exact absurd rfl hne
  · exact .of_enterFault (by simp [hs]) (by decide) _ _
  · exact .of_enterFault (by simp [hs]) hc _ _
  · exact Transition.of_advanced (s := (s.writeOb s.oaddr v).setAcc acc) hs hx hne
  · exact Transition.of_advanced (s := s.setAcc (s.acc ||| laneBit v (s.x.toNat % 8))) hs hx hne

theorem exec_begin_transition (hs : s.state = .idle) (hne : s.beginImage.state ≠ s.state) :
    Transition .begin s s.beginImage := by
  rcases s.beginImage_cases with ⟨-, -, e⟩ | ⟨-, -, e⟩ | ⟨-, -, -, e⟩ <;> rw [e] at hne ⊢
  · exact absurd rfl hne
  · exact absurd rfl hne
  · exact .inl ⟨hs, rfl, rfl, rfl⟩

/-- An operation that changes STATE makes one of the three transitions. -/
theorem exec_transition {i : Instr} (h : exec i s = .next t) (hne : t.state ≠ s.state) : Transition i s t := by
  by_cases hp : ∃ p, i = .pix p
  · obtain ⟨p, rfl⟩ := hp
    exact exec_pix_transition h hne
  · rcases exec_control_cases (fun p e => hp ⟨p, e⟩) h with ⟨-, rfl⟩ | ⟨hs, rfl⟩ | hs
    · exact absurd rfl hne
    · exact .of_enterFault (by simp [hs]) (by decide) _ _
    · cases i with
      | cfg mono e m =>
        cases (exec_cfg_idle mono e m hs).symm.trans h
        exact absurd rfl hne
      | setw v =>
        cases (exec_setw_idle v hs).symm.trans h
        exact absurd rfl hne
      | seth v =>
        cases (exec_seth_idle v hs).symm.trans h
        exact absurd rfl hne
      | begin =>
        cases (exec_begin_idle hs).symm.trans h
        exact exec_begin_transition hs hne
      | pix p => exact absurd ⟨p, rfl⟩ hp

/-! ### The last pixel of an image (43 R149) -/

/-- `advance()` on the last pixel. -/
theorem State.advanced_of_last (hx : s.x.toNat + 1 = s.width.toNat) (hy : s.y.toNat + 1 = s.height.toNat) :
    s.advanced = ((s.setPosition 0 (s.y + 1)).setRunState .idle).setResult .done := by
  rw [State.advanced, if_neg (by omega), if_pos hy]

/-- Under the invariants a PIX that stores leaves ACC 0 in both modes. -/
theorem Inv.accAfterStore (hi : Inv s) (hs : s.state = .active) : s.accAfterStore = 0 := by
  unfold State.accAfterStore
  cases hm : s.mode with
  | rgb332 => exact hi.rgb_acc hm (by simp [hs])
  | mono => rfl

/-- Under the invariants a PIX that stores makes its store, leaves ACC 0 and advances. -/
theorem Inv.exec_pix_of_storeOf (hi : Inv s) {p : Arg} {a : Nat} {v : Byte} (h : storeOf p s = some (a, v)) :
    exec (.pix p) s = .next ((s.writeOb a v).setAcc 0).advanced := by
  obtain ⟨hs, rfl, e⟩ := Machine.exec_pix_of_storeOf h
  have hstore : memWrite s.oaddr v s = .next (s.writeOb s.oaddr v) :=
    memWrite_eq_next.2 ⟨⟨_, hi.active_obSize hs, hi.oaddr_lt_nbytes hs⟩, rfl⟩
  rw [e, hstore, Answer.andThen_next, hi.accAfterStore hs]
  exact advance_eq_next.2 ⟨⟨hi.active_x_lt hs, hi.active_y_lt hs⟩, rfl⟩

/-- The mode accepts the pixel: the mux gives a byte, or the packer a bit (41 R110, 42 R125). -/
def State.accepts (s : State) (p : Arg) : Prop :=
  match s.mode with
  | .rgb332 => ∃ b, select332 p s.maskEn s.mask = .byte b
  | .mono => monoBit p ≠ .invalid

/-- The last pixel of a row is stored where it is accepted: in MONO mode it is the eighth of its run. -/
theorem Inv.storeOf_of_row_end (hi : Inv s) (hs : s.state = .active) (hx : s.x.toNat + 1 = s.width.toNat)
    {p : Arg} (hp : s.accepts p) : ∃ v, storeOf p s = some (s.oaddr, v) := by
  unfold State.accepts at hp
  cases hm : s.mode with
  | rgb332 =>
    simp only [hm] at hp
    obtain ⟨b, hb⟩ := hp
    exact ⟨b, by simp [storeOf, hs, hm, hb]⟩
  | mono =>
    simp only [hm] at hp
    have h7 : s.x.toNat % 8 = 7 := by
      have h8 := hi.mono_width hs hm
      omega
    cases hv : monoBit p with
    | invalid => exact absurd hv hp
    | bit v => exact ⟨s.acc ||| laneBit v 7, by simp [storeOf, hs, hm, hv, h7]⟩

end Sys2Proof.Machine

namespace Sys2Proof.Proofs

open Sys2Proof.Machine

/-- Settles O19: with no skip BEGIN creates an OB of NBYTES bytes, and an image of zero area has none. -/
theorem beginZeroArea : Obligations.BeginZeroArea := by
  intro s hs hz
  refine ⟨s.beginImage, exec_begin_idle hs, ?_⟩
  by_cases hskip : s.mode = .mono ∧ s.width.toNat % 8 ≠ 0
  · rw [if_pos hskip, State.beginImage_of_skips hskip]
    exact ⟨hs, rfl, rfl, rfl⟩
  · rw [if_neg hskip, State.beginImage_of_zeroArea hskip hz, State.nbytes_of_zeroArea hz]
    exact ⟨hs, rfl, rfl, rfl, rfl⟩

/-- Settles O20: a skip leaves IDLE, where PIX raises PROTOCOL; the width test asks for MONO mode. -/
theorem beginWidthSkip : Obligations.BeginWidthSkip := by
  refine ⟨fun s hs hm hw => ?_, low_bits_ne_zero_iff, fun s hs hm => ⟨_, exec_begin_idle hs, ?_⟩⟩
  · have hskip := State.beginImage_of_skips ⟨hm, (low_bits_ne_zero_iff s.width).1 hw⟩
    exact ⟨_, (exec_begin_idle hs).trans (congrArg _ hskip), rfl, hs, rfl, rfl, rfl, fun p => exec_pix_idle p hs⟩
  · rcases s.beginImage_cases with ⟨hmono, -, -⟩ | ⟨-, -, e⟩ | ⟨-, -, -, e⟩
    · simp [hm] at hmono
    · simp [e]
    · simp [e]

/-- Settles O22: the two rows of the table of R140 that raise PROTOCOL; the word's fields are the operation's. -/
theorem protocolFault : Obligations.ProtocolFault := by
  refine ⟨rfl, fun i s h => ?_⟩
  rw [opField_encode, argField_encode]
  rcases h with ⟨⟨p, rfl⟩, hs⟩ | ⟨hi, hs⟩
  · exact exec_pix_idle p hs
  · exact exec_control_active hi hs

/-- Settles O23: neither an operation nor an illegal word does anything in FAULT. -/
theorem faultIgnoresCommands : Obligations.FaultIgnoresCommands :=
  fun _ _ _ hs hin => step_of_fault hin hs

/-- Settles O51: of the four things a step does, an operation's transitions are those of `exec_transition`, and an
illegal word's is a fault. -/
theorem stateTransitions : Obligations.StateTransitions := by
  intro s t h hne
  rcases step_cases s with ⟨-, e⟩ | ⟨rest, hin, e⟩ | ⟨w, i, rest, hin, hd, e⟩ | ⟨w, why, rest, hin, -, e⟩ <;>
    rw [e] at h
  · cases h
    exact absurd rfl hne
  · cases h
    exact .inl ⟨rest, hin, rfl⟩
  · refine .inr ⟨w, rest, hin, ?_⟩
    rw [hd]
    simpa [Transition] using exec_transition h hne
  · cases h
    rcases illegalWord_cases w (s.setInputs rest) with ⟨-, e⟩ | ⟨hs, e⟩ <;> rw [e] at hne ⊢
    · exact absurd rfl hne
    · exact .inr ⟨w, rest, hin, .inr (.inr ⟨hs, rfl, by simp⟩)⟩

/-- Settles O57: the last pixel of a row is stored in either mode, and `advance()` in the last row completes the
image. -/
theorem lastPixelCompletesImage : Obligations.LastPixelCompletesImage := by
  intro p s hi hs hx hy hp
  obtain ⟨v, hstore⟩ := hi.storeOf_of_row_end hs hx hp
  refine ⟨_, hi.exec_pix_of_storeOf hstore, ?_⟩
  rw [State.advanced_of_last (s := (s.writeOb s.oaddr v).setAcc 0) hx hy]
  have hrow : s.y + 1 = s.height := by bv_omega
  exact ⟨rfl, rfl, rfl, hrow, rfl, rfl, rfl, rfl, rfl, rfl, hi.active_obSize hs⟩

/-- Settles O15: `exec_cfg_idle`, and PROTOCOL in ACTIVE. -/
theorem cfgEffect : Obligations.CfgEffect := by
  refine fun mono maskEn mask s => ⟨fun hs => exec_cfg_idle mono maskEn mask hs, fun hs => ?_⟩
  rw [argField_encode]
  exact exec_control_active (by simp) hs

/-- Settles O16: `exec_setw_idle`, and PROTOCOL in ACTIVE. -/
theorem setwEffect : Obligations.SetwEffect :=
  fun v _ => ⟨exec_setw_idle v, exec_control_active (by simp)⟩

/-- Settles O17: `exec_seth_idle`, and PROTOCOL in ACTIVE. -/
theorem sethEffect : Obligations.SethEffect :=
  fun v _ => ⟨exec_seth_idle v, exec_control_active (by simp)⟩

/-- Settles O18: the three outcomes of `beginImage`, and PROTOCOL in ACTIVE. -/
theorem beginEffect : Obligations.BeginEffect := by
  refine fun s => ⟨fun hs => (exec_begin_idle hs).trans (congrArg _ ?_), exec_control_active (by simp)⟩
  by_cases hskip : s.mode = .mono ∧ s.width.toNat % 8 ≠ 0
  · rw [if_pos hskip, State.beginImage_of_skips hskip]
    rfl
  · rw [if_neg hskip]
    by_cases hz : s.width = 0 ∨ s.height = 0
    · rw [if_pos hz, State.beginImage_of_zeroArea hskip hz]
      rfl
    · rw [if_neg hz, State.beginImage_of_starts hskip hz]
      rfl

end Sys2Proof.Proofs
end

section
/-! The family 60_exceptions.md: the faults of a pixel in the order of their tests (rules R167, R172, R173), what fault
entry writes (R170), that reset alone leaves FAULT (R178), and how an image stands (R184). -/

namespace Sys2Proof.Machine

variable {s t : State}

/-! ### Which pixels fault, and with which cause (60 R167, R171 to R174) -/

/-- The two words that the packer accepts are opaque. -/
theorem monoBit_of_not_opaque {p : Arg} (ha : p.extractLsb' 0 8 ≠ 255) : monoBit p = .invalid := by
  rw [monoBit_eq_invalid_iff]
  constructor <;> rintro rfl <;> exact ha (by decide)

/-- A PIX that the mux turns down reports the mux's cause. -/
theorem exec_pix_fault_of_cause {p : Arg} {c : Cause} (hs : s.state = .active) (hm : s.mode = .rgb332)
    (hc : select332 p s.maskEn s.mask = .cause c) (h : exec (.pix p) s = .next t) :
    t.state = .fault ∧ t.cause = c := by
  cases (exec_pix_of_cause hs hm hc).symm.trans h
  exact ⟨rfl, rfl⟩

/-- A PIX that the mux gives a byte for enters no fault. -/
theorem exec_pix_ne_fault_of_byte {p : Arg} {b : Byte} (hs : s.state = .active) (hm : s.mode = .rgb332)
    (hb : select332 p s.maskEn s.mask = .byte b) (h : exec (.pix p) s = .next t) : t.state ≠ .fault := by
  rw [exec_pix_rgb332 p hs hm] at h
  rcases pixRgb332_eq_next.1 h with ⟨c, hc, -⟩ | ⟨b, -, -, -, rfl⟩
  · simp [hb] at hc
  · exact State.advanced_ne_fault hs

/-- A PIX that the packer gives a bit for enters no fault. -/
theorem exec_pix_ne_fault_of_bit {p : Arg} {v : Bool} (hs : s.state = .active) (hm : s.mode = .mono)
    (hv : monoBit p = .bit v) (h : exec (.pix p) s = .next t) : t.state ≠ .fault := by
  rw [exec_pix_mono p hs hm] at h
  rcases pixMono_eq_next.1 h with ⟨hp, -⟩ | ⟨v, -, -, -, rfl⟩ | ⟨v, -, -, -, -, rfl⟩
  · simp [hv] at hp
  · exact State.advanced_ne_fault hs
  · exact State.advanced_ne_fault hs

/-- In RGB332 mode alpha is tested first, then the channels. -/
theorem exec_pix_rgb332_priority {p : Arg} (hs : s.state = .active) (hm : s.mode = .rgb332)
    (h : exec (.pix p) s = .next t) :
    if p.extractLsb' 0 8 = 0 then
      if s.maskEn then t.state ≠ .fault else t.state = .fault ∧ t.cause = .transparentNoMask
    else if p.extractLsb' 0 8 ≠ 255 then t.state = .fault ∧ t.cause = .partialTransparency
    else if quantR (p.extractLsb' 24 8) = none ∨ quantG (p.extractLsb' 16 8) = none ∨
        quantB (p.extractLsb' 8 8) = none then
      t.state = .fault ∧ t.cause = .unsupportedChannel
    else t.state ≠ .fault := by
  obtain ⟨-, hpartial, hunsupported, hsupported⟩ := Proofs.lookupClasses p
  split_ifs with h0 hen h255 hnone
  · exact exec_pix_ne_fault_of_byte hs hm ((select332_of_transparent h0 _ _).trans (if_pos hen)) h
  · exact exec_pix_fault_of_cause hs hm ((select332_of_transparent h0 _ _).trans (if_neg hen)) h
  · exact exec_pix_fault_of_cause hs hm
      (select332_of_unsupported (hpartial.2 (partial_alpha_iff.2 ⟨h0, h255⟩)) _ _) h
  · exact exec_pix_fault_of_cause hs hm
      (select332_of_unsupported (hunsupported.2 ⟨not_not.1 h255, hnone⟩) _ _) h
  · simp only [not_or, ← ne_eq, Option.ne_none_iff_exists'] at hnone
    obtain ⟨⟨cr, hr⟩, ⟨cg, hg⟩, ⟨cb, hb⟩⟩ := hnone
    have hcodes := (hsupported _).2 ⟨not_not.1 h255, cr, cg, cb, hr, hg, hb, rfl⟩
    exact exec_pix_ne_fault_of_byte hs hm (select332_of_supported hcodes _ _) h

/-- In MONO mode there is one test, for the two words that the packer accepts. -/
theorem exec_pix_mono_priority {p : Arg} (hs : s.state = .active) (hm : s.mode = .mono)
    (h : exec (.pix p) s = .next t) :
    if p = pureBlack ∨ p = pureWhite then t.state ≠ .fault
    else t.state = .fault ∧ t.cause = .invalidMonoPixel := by
  cases hp : monoBit p with
  | invalid =>
    rw [if_neg (not_or.2 (monoBit_eq_invalid_iff.1 hp))]
    cases (exec_pix_of_invalid hs hm hp).symm.trans h
    exact ⟨rfl, rfl⟩
  | bit v =>
    have hword : p = pureBlack ∨ p = pureWhite := by
      rw [monoBit_eq_bit_iff] at hp
      cases v <;> simp [hp]
    rw [if_pos hword]
    exact exec_pix_ne_fault_of_bit hs hm hp h

/-! ### Control operations and fault entry (60 R167, R170) -/

/-- BEGIN enters no fault: it stays in IDLE or starts an image. -/
theorem State.beginImage_ne_fault (hs : s.state = .idle) : s.beginImage.state ≠ .fault := by
  rcases s.beginImage_cases with ⟨-, -, e⟩ | ⟨-, -, e⟩ | ⟨-, -, -, e⟩ <;> simp [e, hs]

/-- A control operation raises PROTOCOL in ACTIVE, and enters no fault in IDLE. -/
theorem exec_control_priority {i : Instr} (hi : ∀ p, i ≠ .pix p) (hs : s.state ≠ .fault)
    (h : exec i s = .next t) :
    if s.state = .active then t.state = .fault ∧ t.cause = .protocol else t.state ≠ .fault := by
  rcases exec_control_cases hi h with ⟨hf, -⟩ | ⟨ha, rfl⟩ | hidle
  · exact absurd hf hs
  · rw [if_pos ha]
    exact ⟨rfl, rfl⟩
  · rw [if_neg (by simp [hidle])]
    cases i with
    | cfg mono e m =>
      cases (exec_cfg_idle mono e m hidle).symm.trans h
      exact hs
    | setw v =>
      cases (exec_setw_idle v hidle).symm.trans h
      exact hs
    | seth v =>
      cases (exec_seth_idle v hidle).symm.trans h
      exact hs
    | begin =>
      cases (exec_begin_idle hidle).symm.trans h
      exact State.beginImage_ne_fault hidle
    | pix p => exact absurd rfl (hi p)

/-- Whatever operation enters FAULT, the state after it is that of `enterFault` with the operation's fields. -/
theorem exec_eq_enterFault {i : Instr} (hs : s.state ≠ .fault) (h : exec i s = .next t) (ht : t.state = .fault) :
    ∃ c, c ≠ .none ∧ t = s.enterFault c i.opcode i.arg := by
  by_cases hp : ∃ p, i = .pix p
  · obtain ⟨p, rfl⟩ := hp
    rcases exec_pix_cases h with ⟨hf, -⟩ | ⟨-, rfl⟩ | ⟨-, -, c, hc, rfl⟩ |
      ⟨ha, -, -, v, acc, -, -, rfl⟩ | ⟨ha, -, -, -, -, v, -, rfl⟩
    · exact absurd hf hs
    · exact ⟨.protocol, by decide, rfl⟩
    · exact ⟨c, hc, rfl⟩
    · exact absurd ht (State.advanced_ne_fault ha)
    · exact absurd ht (State.advanced_ne_fault ha)
  · have hi : ∀ p, i ≠ .pix p := fun p e => hp ⟨p, e⟩
    rcases exec_control_cases hi h with ⟨hf, -⟩ | ⟨-, rfl⟩ | hidle
    · exact absurd hf hs
    · exact ⟨.protocol, by decide, rfl⟩
    · have hpriority := exec_control_priority hi hs h
      rw [if_neg (by simp [hidle])] at hpriority
      exact absurd ht hpriority

/-- The step that takes an illegal word outside FAULT enters it with the word's fields (60 R175). -/
theorem step_of_illegal_of_ne_fault {w : Command} {why : Illegal} {rest : List Input}
    (hin : s.inputs = .command w :: rest) (hd : decode w = .illegal why) (hs : s.state ≠ .fault) :
    step s = .next ((s.setInputs rest).enterFault .illegal (opField w) (argField w)) :=
  (step_of_illegal hin hd).trans (congrArg Host.Outcome.next (if_neg hs))

/-! ### How an image stands (60 R184) -/

theorem State.verdict_of_fault (hs : s.state = .fault) : s.verdict = .fatal s.cause s.diag s.x s.y := by
  simp only [State.verdict, hs]

theorem State.verdict_of_active (hs : s.state = .active) : s.verdict = .wants s.x s.y := by
  simp only [State.verdict, hs]

theorem State.verdict_of_none (hs : s.state = .idle) (hr : s.result = .none) : s.verdict = .notStarted := by
  simp only [State.verdict, hs, hr]

theorem State.verdict_of_done (hs : s.state = .idle) (hr : s.result = .done) : s.verdict = .done s.obBytes := by
  simp only [State.verdict, hs, hr]

theorem State.verdict_of_skipped (hs : s.state = .idle) (hr : s.result = .skipped) : s.verdict = .skipped := by
  simp only [State.verdict, hs, hr]

end Sys2Proof.Machine

namespace Sys2Proof.Proofs

open Sys2Proof.Machine

/-- Settles O26: such an alpha is unsupported under every mask, and the packer's two words are opaque. -/
theorem partialTransparencyFaults : Obligations.PartialTransparencyFaults := by
  refine ⟨rfl, rfl, fun p s hs h1 h254 => ?_⟩
  cases hm : s.mode with
  | rgb332 =>
    obtain ⟨-, hpartial, -⟩ := lookupClasses p
    rw [exec_pix_of_cause hs hm (select332_of_unsupported (hpartial.2 ⟨h1, h254⟩) _ _), State.enterFault, hm]
    rfl
  | mono =>
    obtain ⟨-, h255⟩ := partial_alpha_iff.1 ⟨h1, h254⟩
    rw [exec_pix_of_invalid hs hm (monoBit_of_not_opaque h255), State.enterFault, hm]

/-- Settles O27: such a pixel is unsupported under every mask, and the mux turns it down. -/
theorem unsupportedChannelFaults : Obligations.UnsupportedChannelFaults := by
  refine ⟨rfl, fun p s hs hm ha hnone => ?_⟩
  obtain ⟨-, -, hunsupported, -⟩ := lookupClasses p
  exact exec_pix_of_cause hs hm (select332_of_unsupported (hunsupported.2 ⟨ha, hnone⟩) _ _)

/-- Settles O48: an operation's fields are those of its word, and an illegal word gives its own. -/
theorem faultEntryWritesFourRegisters : Obligations.FaultEntryWritesFourRegisters := by
  intro s t w rest hin hs h ht
  cases hd : decode w with
  | op i =>
    obtain rfl := decode_eq_op_iff.1 hd
    rw [step_of_encode hin] at h
    obtain ⟨c, hc, rfl⟩ := exec_eq_enterFault (s := s.setInputs rest) hs h ht
    rw [opField_encode, argField_encode]
    exact ⟨c, hc, rfl⟩
  | illegal why =>
    cases (step_of_illegal_of_ne_fault hin hd hs).symm.trans h
    exact ⟨.illegal, by decide, rfl⟩

/-- Settles O49: the decoder's verdict first, then the STATE, then the pixel tests of the mode. -/
theorem faultPriority : Obligations.FaultPriority := by
  intro s t w rest hin h
  by_cases hs : s.state = .fault
  · rw [if_pos hs]
    cases (step_of_fault hin hs).symm.trans h
    rfl
  rw [if_neg hs]
  cases hd : decode w with
  | illegal why =>
    cases (step_of_illegal_of_ne_fault hin hd hs).symm.trans h
    exact ⟨rfl, rfl⟩
  | op i =>
    have hexec : exec i (s.setInputs rest) = .next t := (stepRunsDecodedCommand s w i rest hin hd).symm.trans h
    cases i with
    | pix p =>
      dsimp only
      cases hst : s.state with
      | fault => exact absurd hst hs
      | idle =>
        cases (exec_pix_idle (s := s.setInputs rest) p hst).symm.trans hexec
        exact ⟨rfl, rfl⟩
      | active =>
        cases hm : s.mode with
        | rgb332 => exact exec_pix_rgb332_priority (s := s.setInputs rest) hst hm hexec
        | mono => exact exec_pix_mono_priority (s := s.setInputs rest) hst hm hexec
    | _ => exact exec_control_priority (s := s.setInputs rest) (by rintro p ⟨⟩) hs hexec

/-- Settles O50: with nothing to take, and on any word, FAULT keeps all registers. -/
theorem onlyResetLeavesFault : Obligations.OnlyResetLeavesFault := by
  intro s t hs h
  rcases hin : s.inputs with _ | ⟨w | _, rest⟩
  · cases (stepWithoutInput s hin).symm.trans h
    exact .inr ⟨hs, rfl, rfl, rfl⟩
  · cases (step_of_fault hin hs).symm.trans h
    exact .inr ⟨hs, rfl, rfl, rfl⟩
  · cases (step_of_reset hin).symm.trans h
    exact .inl ⟨rest, rfl, rfl, rfl⟩

/-- Settles O52: STATE, and in IDLE RESULT, give one verdict each. -/
theorem imageEndings : Obligations.ImageEndings := by
  intro s
  cases hs : s.state with
  | fault => simp [State.verdict_of_fault hs, eq_comm]
  | active => simp [State.verdict_of_active hs, eq_comm]
  | idle =>
    cases hr : s.result with
    | none => simp [State.verdict_of_none hs hr]
    | done => simp [State.verdict_of_done hs hr, eq_comm]
    | skipped => simp [State.verdict_of_skipped hs hr]

end Sys2Proof.Proofs
end

section
/-! The family 70_reset_and_hazards.md: under the invariants a store lies in OB and the position in the image, so no
step stops the model (rule R203, with 20 R52). -/

namespace Sys2Proof.Machine

variable {s : State}

/-- Under the invariants a PIX in ACTIVE enters a fault, stores at an index that OB has, or gathers a bit. -/
theorem Inv.exec_pix_completes (hi : Inv s) (hs : s.state = .active) (p : Arg) : ∃ t, exec (.pix p) s = .next t := by
  cases hm : s.mode with
  | rgb332 =>
    cases hsel : select332 p s.maskEn s.mask with
    | cause c => exact ⟨_, exec_pix_of_cause hs hm hsel⟩
    | byte b => exact ⟨_, hi.exec_pix_of_byte hs hm hsel⟩
  | mono =>
    have hxy := And.intro (hi.active_x_lt hs) (hi.active_y_lt hs)
    cases hp : monoBit p with
    | invalid => exact ⟨_, exec_pix_of_invalid hs hm hp⟩
    | bit v =>
      by_cases h7 : s.x.toNat % 8 = 7
      · exact ⟨_, exec_pix_stores hs hm hp h7 hxy ⟨_, hi.active_obSize hs, hi.oaddr_lt_nbytes hs⟩⟩
      · exact ⟨_, exec_pix_gathers hs hm hp h7 hxy⟩

/-- Under the invariants every operation answers a next state in every STATE. -/
theorem Inv.exec_completes (hi : Inv s) (i : Instr) : ∃ t, exec i s = .next t := by
  cases hs : s.state with
  | fault => exact ⟨_, exec_of_fault i hs⟩
  | idle =>
    cases i with
    | cfg mono maskEn mask => exact ⟨_, exec_cfg_idle mono maskEn mask hs⟩
    | setw v => exact ⟨_, exec_setw_idle v hs⟩
    | seth v => exact ⟨_, exec_seth_idle v hs⟩
    | begin => exact ⟨_, exec_begin_idle hs⟩
    | pix p => exact ⟨_, exec_pix_idle p hs⟩
  | active =>
    cases i with
    | pix p => exact hi.exec_pix_completes hs p
    | _ => exact ⟨_, exec_control_active (by rintro p ⟨⟩) hs⟩

end Sys2Proof.Machine

namespace Sys2Proof.Proofs

open Sys2Proof.Machine

/-- Settles O55: of the four things a step does with the oldest input, only an operation could stop the model. -/
theorem stepCompletesUnderInv : Obligations.StepCompletesUnderInv := by
  intro s hi
  rcases step_cases s with ⟨-, e⟩ | ⟨rest, -, e⟩ | ⟨w, i, rest, -, -, e⟩ | ⟨w, why, rest, -, -, e⟩
  · exact ⟨_, e⟩
  · exact ⟨_, e⟩
  · exact e ▸ (hi.setInputs rest).exec_completes i
  · exact ⟨_, e⟩

end Sys2Proof.Proofs
end
